-- ==== Sys2Proof/Word.lean ====
section
/-! DEFINITION. The word types of the part: what the manual treats as bits. -/

namespace Sys2Proof

/-- A byte on one of the part's serial links (01_scan_link "Lanes and segments", 11_host_port "Frames"). -/
abbrev Byte := BitVec 8

/-- A 16-bit word of the voicing image, and a CRC-16 value (R5, 11_host_port "The voicing image"). -/
abbrev Word16 := BitVec 16

/-- A performance clock value in microseconds, which wraps (00_scope "The performance clock"). -/
abbrev Time := BitVec 32

/-- A scan line number, which counts modulo 65536 (R6). -/
abbrev LineNo := BitVec 16

/-- A set of scan lanes: bit n stands for lane n (settings table, LANE_ENABLE). -/
abbrev LaneSet := BitVec 4

/-- The 512 pixels one lane carries, lane pixel 0 the most significant bit (01_scan_link, segment layout). -/
abbrev LanePixels := BitVec 512

end Sys2Proof
end

