-- ==== Sys2Proof/Syntax.lean ====
section
/-! DEFINITION. The commands of the part: one constructor per row of spec/opcode_table.json.
Every command but FULL_RESET carries first the performance clock value `t` at which it is taken (log 1).
The arguments of a request stand in the frame that the request's command takes from the intake (R195). -/

namespace Sys2Proof

/-- The two pedals (R163). -/
inductive Pedal where
  | sustain
  | shift
  deriving DecidableEq, Repr

/-- What the input lines are doing at the end of a full reset (R1, R144, R193). -/
structure InputLines where
  /-- The lanes whose frame line is asserted. -/
  framed : LaneSet
  /-- A burst is in progress on the hammer line. -/
  hubBusy : Bool
  /-- The chip select is low: a transaction is in progress. -/
  selected : Bool
  deriving DecidableEq, Repr

/-- The part of a read transaction a command stands for (R193; log 6). -/
inductive ReadPhase where
  /-- The chip select falls: the frame is chosen. -/
  | fall
  /-- The chip select rises after so many bytes have been clocked. -/
  | rise (clocked : Nat)
  /-- A whole read, fall and rise with nothing between them. -/
  | whole (clocked : Nat)
  deriving DecidableEq, Repr

/-- The commands. -/
inductive Instr where
  /-- FULL_RESET (R205): power-on, or the release of the RESET pin. -/
  | fullReset (lines : InputLines)
  /-- IMAGE_LOAD_COMPLETE (R202): `acked` says that the EEPROM acknowledged throughout the reading;
  `framed` gives the lanes whose frame line is asserted at the completion (R16). -/
  | imageLoadComplete (t : Time) (acked : Bool) (framed : LaneSet)
  /-- SEGMENT_ARRIVAL (R1): the frame line of lane `lane` (0..3) is deasserted after the burst `bytes`. -/
  | segmentArrival (t : Time) (lane : Nat) (bytes : List Byte)
  /-- LINE_TIMER_EXPIRY (R15). -/
  | lineTimerExpiry (t : Time)
  /-- STRIKE_QUEUE_HEAD_TIMER (R118). -/
  | strikeQueueHeadTimer (t : Time)
  /-- STRIKE_END_TIMER_EXPIRY (R125, R126) of key `key` (1..88). -/
  | strikeEndTimerExpiry (t : Time) (key : Nat)
  /-- GAP_END (R94) of key `key` (1..88). -/
  | gapEnd (t : Time) (key : Nat)
  /-- RELEASE_TIME (R92) of key `key` (1..88). -/
  | releaseTime (t : Time) (key : Nat)
  /-- EXPRESSION_STEP (R64, R65). -/
  | expressionStep (t : Time)
  /-- HEAT_STEP (R138). -/
  | heatStep (t : Time)
  /-- PEDAL_STEP (R168, R169). -/
  | pedalStep (t : Time)
  /-- PEDAL_FAULT (R170): the settle timeout of one pedal at a servo step. -/
  | pedalFault (t : Time) (pedal : Pedal)
  /-- PEDAL_EVENT_DUE (R167). -/
  | pedalEventDue (t : Time) (pedal : Pedal)
  /-- HUB_REPORT (R144): the reception of the fourth byte of a burst completes. -/
  | hubReport (t : Time) (byte : Byte)
  /-- HUB_BURST_END (R144): the hammer line has stayed idle for two byte lengths. -/
  | hubBurstEnd (t : Time)
  /-- CUE_ENTRY_DUE (R184). -/
  | cueEntryDue (t : Time)
  /-- SPI_WRITE_TRANSACTION (R194): the chip select rises after the host clocked in `bytes`. -/
  | spiWriteTransaction (t : Time) (bytes : List Byte)
  /-- SPI_READ_TRANSACTION (R193). -/
  | spiReadTransaction (t : Time) (phase : ReadPhase)
  /-- BAD_REQUEST (R195). -/
  | badRequest (t : Time)
  /-- STATUS (R198), with the level of the service pin. -/
  | status (t : Time) (pin : Bool)
  /-- TIME_READ (R198). -/
  | timeRead (t : Time)
  /-- CONFIG_READ (R199). -/
  | configRead (t : Time)
  /-- CONFIG_WRITE (R199), with the level of the service pin (R197). -/
  | configWrite (t : Time) (pin : Bool)
  /-- PERFORMANCE_RESET (R206). -/
  | performanceReset (t : Time)
  /-- ROLL_START (R33). -/
  | rollStart (t : Time)
  /-- ROLL_STOP (R34). -/
  | rollStop (t : Time)
  /-- ROLL_QUERY (R35). -/
  | rollQuery (t : Time)
  /-- APERTURE_QUERY (R54). -/
  | apertureQuery (t : Time)
  /-- APERTURE_CLOSE (R55). -/
  | apertureClose (t : Time)
  /-- EXPR_SET (R76). -/
  | exprSet (t : Time)
  /-- EXPR_QUERY (R77). -/
  | exprQuery (t : Time)
  /-- PLAY_OPEN (R95). -/
  | playOpen (t : Time)
  /-- PLAY_CLOSE (R96). -/
  | playClose (t : Time)
  /-- PLAY_CANCEL (R97). -/
  | playCancel (t : Time)
  /-- ALL_OFF (R101). -/
  | allOff (t : Time)
  /-- QUIET_SET (R100). -/
  | quietSet (t : Time)
  /-- KEY_AMEND (R98). -/
  | keyAmend (t : Time)
  /-- KEY_QUERY (R105). -/
  | keyQuery (t : Time)
  /-- KEY_RETIRE (R102). -/
  | keyRetire (t : Time)
  /-- KEY_RESTORE (R103). -/
  | keyRestore (t : Time)
  /-- PEDAL_SET (R171). -/
  | pedalSet (t : Time)
  /-- PEDAL_YIELD (R173). -/
  | pedalYield (t : Time)
  /-- PEDAL_QUERY (R175). -/
  | pedalQuery (t : Time)
  /-- PEDAL_CLEAR_FAULT (R176). -/
  | pedalClearFault (t : Time)
  /-- CONTEXT_READ (R180). -/
  | contextRead (t : Time)
  /-- CONTEXT_WRITE (R181). -/
  | contextWrite (t : Time)
  /-- CUE_PUSH (R183). -/
  | cuePush (t : Time)
  /-- CUE_FLUSH (R189). -/
  | cueFlush (t : Time)
  /-- CUE_QUERY (R189). -/
  | cueQuery (t : Time)
  /-- VOICE_READ (R160). -/
  | voiceRead (t : Time)
  /-- VOICE_WRITE (R161). -/
  | voiceWrite (t : Time)
  /-- VOICE_COMMIT (R203), with the level of the service pin (R197) and whether the EEPROM acknowledges
  the first page when it is sent (R204; log 8). -/
  | voiceCommit (t : Time) (pin : Bool) (acked : Bool)
  /-- COMMIT_PAGE_WRITTEN (R204): the page's write cycle completes; `acked` says whether the EEPROM
  acknowledges the next page when it is sent (not read after the last page). -/
  | commitPageWritten (t : Time) (acked : Bool)
  /-- COMMIT_ACK_TIMEOUT (R204). -/
  | commitAckTimeout (t : Time)
  /-- HUB_BYTE_RECEIVED (R144). -/
  | hubByteReceived (t : Time) (byte : Byte)
  deriving DecidableEq, Repr

end Sys2Proof
end

