-- ==== Sys2Proof/Decode.lean ====
section
/-! DEFINITION. The decoder over the rows of spec/opcode_table.json that give bits. No row gives any:
every row's "fields" is the empty list and no row has "fixed", so no word spells a command (log 23). -/

namespace Sys2Proof

/-- The command that a word spells by the table's bits: none for every word. -/
def decodeTableWord (_nbits _w : Nat) : Option Instr := none

end Sys2Proof
end

