-- ==== Sys2Proof/Machine/Bytes.lean ====
section
/-! DEFINITION. Byte order, field encodings of frames and the CRC. -/

namespace Sys2Proof.Machine

/-- A one-byte unsigned field (11_host_port, field table). -/
def byteOf (n : Nat) : Byte := BitVec.ofNat 8 n

/-- A one-byte two's complement field. -/
def byteOfInt (n : Int) : Byte := BitVec.ofInt 8 n

/-- The bytes of a word of `n` bytes, most significant byte first (11 "Frames"). -/
def bytesOf : Nat → Nat → List Byte
  | 0, _ => []
  | n + 1, v => byteOf (v / 256 ^ n) :: bytesOf n v

/-- A two-byte unsigned field. -/
def field16 (v : Nat) : List Byte := bytesOf 2 v

/-- A four-byte unsigned field. -/
def field32 (v : Nat) : List Byte := bytesOf 4 v

/-- A time field. -/
def fieldTime (t : Time) : List Byte := field32 t.toNat

/-- A line number field. -/
def fieldLine (n : LineNo) : List Byte := field16 n.toNat

/-- A two-byte two's complement field. -/
def field16Int (v : Int) : List Byte := field16 (BitVec.ofInt 16 v).toNat

/-- A four-byte two's complement field (lateness). -/
def field32Int (v : Int) : List Byte := field32 (BitVec.ofInt 32 v).toNat

/-- OFF is 0 and ON is 1. -/
def fieldBool (b : Bool) : List Byte := [if b then 1 else 0]

/-- An optional field: the presence byte, then the value bytes, sent as 0 when absent. `width` is the
number of value bytes. -/
def fieldOptional (width : Nat) : Option (List Byte) → List Byte
  | none => 0 :: List.replicate width 0
  | some bytes => 1 :: bytes

/-- A list: the number of entries, then the entries. -/
def fieldList (entries : List (List Byte)) : List Byte := byteOf entries.length :: entries.flatten

/-- The unsigned value of bytes sent most significant first. -/
def valueOf (bytes : List Byte) : Nat := bytes.foldl (fun v b => v * 256 + b.toNat) 0

/-- The two's complement value of a field of `bits` bits. -/
def signedValue (bits v : Nat) : Int := (BitVec.ofNat bits v).toInt

/-- One bit fed to the CRC of R5: generator x^16 + x^12 + x^5 + 1. -/
def crcBit (crc : Word16) (b : Bool) : Word16 :=
  if crc.msb != b then (crc <<< 1) ^^^ 0x1021#16 else crc <<< 1

/-- One byte fed to the CRC, most significant bit first (R5). -/
def crcByte (crc : Word16) (b : Byte) : Word16 :=
  (List.range 8).foldl (fun c i => crcBit c (b.getMsbD i)) crc

/-- The CRC-16 of R5: initial value FFFF, not inverted, not bit-reversed. -/
def crc16 (bytes : List Byte) : Word16 := bytes.foldl crcByte 0xFFFF#16

end Sys2Proof.Machine
end

