-- ==== Sys2Proof/Config.lean ====
section
/-! DEFINITION. What the manual leaves open: free values. None has a body, so nothing can be proved of
the value it takes. -/

namespace Sys2Proof

/-- Free value (log 9): whether the EEPROM took the page whose write cycle a full reset interrupted
(R204 says only that the next load judges the EEPROM "as the interrupted commit left it"). The argument
is the count of open values drawn before it. -/
opaque Config.interruptedPageTaken : Nat → Bool

/-- Free value (log 10): the missing count of a completed line that is not ahead of the reference line.
R6 gives a missing count only for a line ahead; the argument is the difference d of R6. -/
opaque Config.missingCountBehind : Nat → Nat

/-- Free value (log 13): the second byte of the owner field of a pedal. The field encoding table gives an
owner "the source byte, then the channel or cue id", and a pedal's owner is a source alone. The arguments
are the pedal (SUSTAIN 0, SHIFT 1) and the source byte. -/
opaque Config.pedalOwnerByte : Nat → Nat → Byte

end Sys2Proof
end

