-- ==== Sys2Proof/Machine/Settings.lean ====
section
/-! DEFINITION. The 43 settings: their numbers, ranges, defaults and image words (11_host_port "Settings"). -/

namespace Sys2Proof.Machine

/-- The settings, in the order of their numbers 1..43 (R199). -/
inductive Setting where
  | perfLatency
  | splitKey
  | confirmLines
  | bridgeLines
  | chordWindow
  | edgeRun
  | nominalWidth
  | widthTol
  | spanRatio
  | lockLines
  | edgeLossLines
  | lineTimeout
  | laneEnable
  | endMode
  | endLines
  | stepSize
  | resetLevel
  | slowRate
  | fastRate
  | sfzBoost
  | accentBoost
  | velMin
  | velMax
  | strikeMargin
  | poolCapacity
  | heatWarn
  | heatMax
  | holdTimeout
  | sensing
  | gateDist
  | hubLatency
  | learn
  | learnGainDuty
  | learnGainFlight
  | pedalEngagePos
  | pedalLeadOn
  | pedalLeadOff
  | pedalGain
  | pedalHold
  | pedalDeadband
  | pedalSettle
  | cueLookahead
  | cueLow
  deriving DecidableEq, Repr

/-- One row of the settings table. -/
structure SettingRow where
  /-- The setting number. -/
  number : Nat
  /-- The least value of the range. -/
  lo : Nat
  /-- The greatest value of the range. -/
  hi : Nat
  /-- The default. -/
  dflt : Nat
  /-- The first image word. -/
  word : Nat
  /-- Whether the setting takes two image words. -/
  wide : Bool
  /-- Whether the setting is protected (R197). -/
  guarded : Bool
  deriving DecidableEq, Repr

/-- The settings table of 11_host_port, row by row. -/
def Setting.row : Setting → SettingRow
  | .perfLatency => ⟨1, 400, 2500, 1200, 3, false, false⟩
  | .splitKey => ⟨2, 1, 87, 44, 4, false, false⟩
  | .confirmLines => ⟨3, 1, 8, 2, 5, false, false⟩
  | .bridgeLines => ⟨4, 0, 8, 3, 6, false, false⟩
  | .chordWindow => ⟨5, 0, 16, 4, 7, false, false⟩
  | .edgeRun => ⟨6, 8, 64, 16, 8, false, false⟩
  | .nominalWidth => ⟨7, 1024, 2040, 1800, 9, false, false⟩
  | .widthTol => ⟨8, 1, 15, 6, 10, false, false⟩
  | .spanRatio => ⟨9, 512, 1023, 922, 11, false, false⟩
  | .lockLines => ⟨10, 4, 255, 16, 12, false, false⟩
  | .edgeLossLines => ⟨11, 4, 255, 32, 13, false, false⟩
  | .lineTimeout => ⟨12, 0, 255, 50, 14, false, false⟩
  | .laneEnable => ⟨13, 1, 15, 15, 15, false, false⟩
  | .endMode => ⟨14, 0, 1, 1, 16, false, false⟩
  | .endLines => ⟨15, 2, 32, 8, 17, false, false⟩
  | .stepSize => ⟨16, 1, 255, 64, 18, false, false⟩
  | .resetLevel => ⟨17, 0, 1023, 512, 19, false, false⟩
  | .slowRate => ⟨18, 1, 255, 6, 20, false, false⟩
  | .fastRate => ⟨19, 1, 255, 38, 21, false, false⟩
  | .sfzBoost => ⟨20, 0, 1023, 320, 22, false, false⟩
  | .accentBoost => ⟨21, 0, 1023, 160, 23, false, false⟩
  | .velMin => ⟨22, 20, 450, 20, 24, false, false⟩
  | .velMax => ⟨23, 20, 450, 450, 25, false, false⟩
  | .strikeMargin => ⟨24, 0, 50, 15, 26, false, false⟩
  | .poolCapacity => ⟨25, 2000, 65535, 16000, 27, false, true⟩
  | .heatWarn => ⟨26, 1000, 250000, 48000, 28, true, true⟩
  | .heatMax => ⟨27, 2000, 260000, 60000, 30, true, true⟩
  | .holdTimeout => ⟨28, 0, 255, 30, 32, false, true⟩
  | .sensing => ⟨29, 0, 1, 1, 33, false, false⟩
  | .gateDist => ⟨30, 10, 200, 50, 34, false, true⟩
  | .hubLatency => ⟨31, 0, 1000, 120, 35, false, true⟩
  | .learn => ⟨32, 0, 1, 0, 36, false, false⟩
  | .learnGainDuty => ⟨33, 0, 15, 4, 37, false, false⟩
  | .learnGainFlight => ⟨34, 0, 15, 2, 38, false, false⟩
  | .pedalEngagePos => ⟨35, 64, 1023, 1000, 39, false, false⟩
  | .pedalLeadOn => ⟨36, 0, 200, 40, 40, false, false⟩
  | .pedalLeadOff => ⟨37, 0, 200, 10, 41, false, false⟩
  | .pedalGain => ⟨38, 1, 64, 8, 42, false, false⟩
  | .pedalHold => ⟨39, 0, 1023, 300, 43, false, false⟩
  | .pedalDeadband => ⟨40, 1, 64, 8, 44, false, false⟩
  | .pedalSettle => ⟨41, 50, 2000, 300, 45, false, true⟩
  | .cueLookahead => ⟨42, 50, 500, 250, 46, false, false⟩
  | .cueLow => ⟨43, 0, 255, 16, 47, false, false⟩

/-- The place of a setting in the list of values. -/
def Setting.index : Setting → Fin 43
  | .perfLatency => 0
  | .splitKey => 1
  | .confirmLines => 2
  | .bridgeLines => 3
  | .chordWindow => 4
  | .edgeRun => 5
  | .nominalWidth => 6
  | .widthTol => 7
  | .spanRatio => 8
  | .lockLines => 9
  | .edgeLossLines => 10
  | .lineTimeout => 11
  | .laneEnable => 12
  | .endMode => 13
  | .endLines => 14
  | .stepSize => 15
  | .resetLevel => 16
  | .slowRate => 17
  | .fastRate => 18
  | .sfzBoost => 19
  | .accentBoost => 20
  | .velMin => 21
  | .velMax => 22
  | .strikeMargin => 23
  | .poolCapacity => 24
  | .heatWarn => 25
  | .heatMax => 26
  | .holdTimeout => 27
  | .sensing => 28
  | .gateDist => 29
  | .hubLatency => 30
  | .learn => 31
  | .learnGainDuty => 32
  | .learnGainFlight => 33
  | .pedalEngagePos => 34
  | .pedalLeadOn => 35
  | .pedalLeadOff => 36
  | .pedalGain => 37
  | .pedalHold => 38
  | .pedalDeadband => 39
  | .pedalSettle => 40
  | .cueLookahead => 41
  | .cueLow => 42

/-- Every setting, in the order of the numbers. -/
def allSettings : List Setting :=
  [.perfLatency, .splitKey, .confirmLines, .bridgeLines, .chordWindow, .edgeRun, .nominalWidth, .widthTol, .spanRatio, .lockLines, .edgeLossLines, .lineTimeout, .laneEnable, .endMode, .endLines]
  ++ [.stepSize, .resetLevel, .slowRate, .fastRate, .sfzBoost, .accentBoost, .velMin, .velMax, .strikeMargin, .poolCapacity, .heatWarn, .heatMax, .holdTimeout, .sensing, .gateDist]
  ++ [.hubLatency, .learn, .learnGainDuty, .learnGainFlight, .pedalEngagePos, .pedalLeadOn, .pedalLeadOff, .pedalGain, .pedalHold, .pedalDeadband, .pedalSettle, .cueLookahead, .cueLow]

/-- The setting with a number, if the number lies in 1..43 (R199). -/
def settingOfNumber (n : Nat) : Option Setting :=
  if n = 0 then none else allSettings[n - 1]?

/-- Whether a value lies in a setting's range. For LANE_ENABLE this leaves out the empty set (R14). -/
def Setting.inRange (x : Setting) (v : Nat) : Bool := decide (x.row.lo ≤ v ∧ v ≤ x.row.hi)

/-- The present values of the 43 settings. -/
structure Settings where
  /-- The value of setting number n stands at place n - 1. -/
  values : Vector Nat 43
  deriving DecidableEq, Repr

/-- The present value of a setting. -/
def Settings.get (s : Settings) (x : Setting) : Nat := s.values[x.index]

/-- The settings with one value replaced. -/
def Settings.put (s : Settings) (x : Setting) (v : Nat) : Settings :=
  { values := s.values.set x.index v }

/-- The settings that a function gives, setting by setting. -/
def settingsOf (f : Setting → Nat) : Settings :=
  allSettings.foldl (fun s x => s.put x (f x)) { values := Vector.replicate 43 0 }

/-- Every setting at its default. -/
def Settings.defaults : Settings := settingsOf fun x => x.row.dflt

end Sys2Proof.Machine
end

