-- ==== Sys2Proof/Machine/Records.lean ====
section
/-! DEFINITION. The records the blocks of the part hold, as plain data. -/

namespace Sys2Proof.Machine

/-! ### Keys, sources, owners -/

/-- A key; key number n (1..88) is the value n - 1 (00_scope "Keys and halves"). -/
abbrev Key := Fin 88

/-- A tracker channel, 0..101 (00_scope "Tracker channels"). -/
abbrev Channel := Fin 102

/-- The two halves of the keyboard (00_scope "Keys and halves"). -/
inductive Half where
  | bass
  | treble
  deriving DecidableEq, Repr

/-- The two sources of notes (R179). -/
inductive Source where
  | roll
  | cue
  deriving DecidableEq, Repr

/-- The owner of a note: (ROLL, channel) or (CUE, cue id) (R78). -/
structure Owner where
  /-- The source. -/
  source : Source
  /-- The channel or the cue id. -/
  id : Byte
  deriving DecidableEq, Repr

/-! ### Scan receiver (01_scan_link) -/

/-- The line in assembly (R8, R9). -/
structure CurrentLine where
  /-- The line number. -/
  number : LineNo
  /-- The required lane set, fixed when the line began. -/
  required : LaneSet
  /-- The lanes delivered so far. -/
  delivered : LaneSet
  /-- The 2048 pixels, 512 for each lane. -/
  lanes : Vector LanePixels 4
  /-- The arrival time of the latest segment taken. -/
  arrival : Time
  deriving DecidableEq, Repr

/-- LAST_SYNC_FAIL: a record of the last dropped line (R11). -/
structure SyncFail where
  /-- The line number. -/
  number : LineNo
  /-- The required lane set. -/
  required : LaneSet
  /-- The lanes that had delivered. -/
  delivered : LaneSet
  deriving DecidableEq, Repr

/-- The scan receiver's state (01_scan_link, table at the head). ASSEMBLING is `current` present. -/
structure Scan where
  /-- The lane receive buffers (R1). -/
  buffers : Vector (List Byte) 4
  /-- The lanes whose burst in progress is ignored (R1, R16). -/
  ignored : LaneSet
  /-- The current line, absent in IDLE. -/
  current : Option CurrentLine
  /-- The reference line, the last completed line. -/
  reference : Option LineNo
  /-- A restart of assembly waits to take effect (R14). -/
  restartPending : Bool
  /-- The next completed line carries the restart mark (R14). -/
  restartMark : Bool
  /-- LINES_DROPPED. -/
  linesDropped : Nat
  /-- HEADERS_CORRECTED. -/
  headersCorrected : Nat
  /-- SEGMENTS_DISCARDED. -/
  segmentsDiscarded : Nat
  /-- LAST_SYNC_FAIL. -/
  lastSyncFail : Option SyncFail
  /-- The line timer: stopped, or running to an expiry time (R15). -/
  lineTimer : Option Time
  deriving DecidableEq, Repr

/-- A completed line as it is handed to the tracker (R10). -/
structure CompletedLine where
  /-- The line number. -/
  number : LineNo
  /-- The pixels. -/
  lanes : Vector LanePixels 4
  /-- The arrival time of the segment that completed it. -/
  time : Time
  /-- The missing count. -/
  missing : Nat
  /-- The restart mark. -/
  mark : Bool
  deriving DecidableEq, Repr

/-! ### Roll tracker (02_roll_tracking) -/

/-- The tracker states (R17). -/
inductive TrackerMode where
  | stopped
  | seeking
  | locked
  | lost
  deriving DecidableEq, Repr

/-- Why the tracker entered LOST (R29). -/
inductive LossReason where
  | edges
  | gap
  | silent
  deriving DecidableEq, Repr

/-- The working geometry settings (R18). -/
structure WorkingGeometry where
  /-- EDGE_RUN. -/
  edgeRun : Nat
  /-- NOMINAL_WIDTH. -/
  nominalWidth : Nat
  /-- WIDTH_TOL. -/
  widthTol : Nat
  /-- SPAN_RATIO. -/
  spanRatio : Nat
  deriving DecidableEq, Repr

/-- The channel geometry in force (R22). -/
structure Geometry where
  /-- The pitch p16 in 1/16 pixel. -/
  pitch : Nat
  /-- The window half-width h. -/
  halfWidth : Nat
  /-- The pixel index of each channel's centre. -/
  pixel : Vector Int 102
  deriving DecidableEq, Repr

/-- The tracker's state (02_roll_tracking, table at the head). -/
structure Tracker where
  /-- The tracker state. -/
  mode : TrackerMode
  /-- The centre C in 1/16 pixel. -/
  centre : Nat
  /-- The width W in 1/16 pixel. -/
  width : Nat
  /-- Whether C and W have been set since the last entry to SEEKING. -/
  seeded : Bool
  /-- The channel geometry in force. -/
  geometry : Geometry
  /-- The lock count. -/
  lockCount : Nat
  /-- The edge-failure count. -/
  edgeFailures : Nat
  /-- The end-mark count. -/
  endMarks : Nat
  /-- The last channel states: true is open. -/
  lastStates : Vector Bool 102
  /-- The working geometry settings. -/
  working : WorkingGeometry
  /-- The number of the last line taken (R29, notice TRACK_LOST for SILENT). -/
  lastLine : LineNo
  deriving DecidableEq, Repr

/-! ### Aperture table (03_the_aperture_table) -/

/-- The mapping of a confirmed note aperture: a key, or a drop reason (R37, R46, R47). -/
inductive Mapping where
  | key (k : Key)
  | disabled
  | outOfRange
  deriving DecidableEq, Repr

/-- The state of an aperture with the fields present in it (R37). `mapping` is present on note channels. -/
inductive ApertureLife where
  | empty
  | tentative (onsetLine : LineNo) (onsetTime : Time) (seen : Nat)
  | opened (onsetLine : LineNo) (onsetTime : Time) (mapping : Option Mapping)
  | bridging (onsetLine : LineNo) (onsetTime : Time) (mapping : Option Mapping)
      (closeLine : LineNo) (closeTime : Time) (absent : Nat)
  deriving DecidableEq, Repr

/-- An aperture record (R37). -/
structure Aperture where
  /-- The blind marking. -/
  blind : Bool
  /-- The state and its fields. -/
  life : ApertureLife
  deriving DecidableEq, Repr

/-- The aperture table (R37, R53). -/
structure ApertureTable where
  /-- One record per channel. -/
  records : Vector Aperture 102
  /-- SPECKS. -/
  specks : Nat
  /-- NOTES_MASKED. -/
  notesMasked : Nat
  /-- NOTES_OUT_OF_RANGE. -/
  notesOutOfRange : Nat
  deriving DecidableEq, Repr

/-! ### Expression unit (04_expression) -/

/-- The crescendo state (R61). -/
inductive Crescendo where
  | none
  | slow
  | fast
  | both
  deriving DecidableEq, Repr

/-- The mode of a half context (R66). -/
inductive ExprMode where
  | roll
  | fixed
  | offset
  deriving DecidableEq, Repr

/-- A chord latch that is present (R57, R71). -/
structure ChordLatch where
  /-- The start line. -/
  start : LineNo
  /-- The latched level. -/
  level : Nat
  deriving DecidableEq, Repr

/-- A half context (R57). -/
structure HalfContext where
  /-- The base level B. -/
  base : Nat
  /-- The effective level E16, in 1/16 level. -/
  effective : Nat
  /-- The crescendo state. -/
  crescendo : Crescendo
  /-- Sforzando active. -/
  sforzando : Bool
  /-- Accent active. -/
  accent : Bool
  /-- The mode. -/
  mode : ExprMode
  /-- The fixed level. -/
  fixedLevel : Nat
  /-- The offset. -/
  offset : Int
  /-- The chord latch. -/
  latch : Option ChordLatch
  deriving DecidableEq, Repr

/-- The expression unit. -/
structure Expression where
  /-- The BASS context. -/
  bass : HalfContext
  /-- The TREBLE context. -/
  treble : HalfContext
  /-- The step timer: stopped, or the time of the next step (R64). -/
  nextStep : Option Time
  deriving DecidableEq, Repr

/-! ### Source contexts (10_source_contexts R179) -/

/-- A context block (R179). -/
structure ContextBlock where
  /-- Enabled. -/
  enabled : Bool
  /-- Priority. -/
  priority : Nat
  /-- Transpose, in semitones. -/
  transpose : Int
  /-- Key low. -/
  keyLow : Nat
  /-- Key high. -/
  keyHigh : Nat
  /-- Level scale, in 1/256. -/
  levelScale : Nat
  deriving DecidableEq, Repr

/-- The two context blocks. -/
structure Contexts where
  /-- The ROLL block. -/
  roll : ContextBlock
  /-- The CUE block. -/
  cue : ContextBlock
  deriving DecidableEq, Repr

/-! ### Key table and strike scheduler (05_the_key_table, 06_strike_computation) -/

/-- A note record without strike values: what a successor holds (R78). -/
structure Note where
  /-- The claimant. -/
  claimant : Owner
  /-- The sound time. -/
  sound : Time
  /-- The level. -/
  level : Nat
  /-- The release time, once a close or a rule has set it. -/
  release : Option Time
  deriving DecidableEq, Repr

/-- The strike values of a note (R109 to R115). -/
structure StrikeValues where
  /-- The velocity code. -/
  velocity : Nat
  /-- The interval index i. -/
  interval : Fin 7
  /-- The fraction f. -/
  fraction : Nat
  /-- The duty. -/
  duty : Nat
  /-- The flight, in 0.1 ms. -/
  flight : Nat
  /-- The planned launch. -/
  planned : Time
  /-- The computed shift. -/
  shift : Nat
  deriving DecidableEq, Repr

/-- The launch modes (R78, R119). -/
inductive LaunchMode where
  | normal
  | muted
  | cool
  deriving DecidableEq, Repr

/-- The fields a note has once it is launched (R124). -/
structure Launch where
  /-- The actual launch. -/
  actual : Time
  /-- The strike limit. -/
  limit : Time
  /-- The launch mode. -/
  mode : LaunchMode
  /-- The lateness in microseconds. -/
  lateness : Int
  deriving DecidableEq, Repr

/-- Why a key is retired (R91, R102). -/
inductive RetireReason where
  | host
  | noHammer
  | fault
  deriving DecidableEq, Repr

/-- The state of a key with what is present in it (R78, and R124 for the sensed marking and the strike
end timer). `waiting` is the state REPEAT. -/
inductive KeyPhase where
  | idle
  | pending (note : Note) (values : StrikeValues)
  | strike (note : Note) (values : StrikeValues) (launch : Launch) (sensed : Bool) (endTimer : Time)
      (successor : Option Note)
  | hold (note : Note) (values : StrikeValues) (launch : Launch) (duty : Nat) (start : Time)
  | damp (gapEnd : Time)
  | waiting (successor : Note) (gapEnd : Time)
  | retired (reason : RetireReason)
  deriving DecidableEq, Repr

/-- A key's flags (R78). -/
structure KeyFlags where
  /-- MUTE. -/
  mute : Bool
  /-- LEARN_EXCLUDE. -/
  learnExclude : Bool
  /-- HOLD_EXEMPT. -/
  holdExempt : Bool
  deriving DecidableEq, Repr

/-- A key record (R78). -/
structure KeyRecord where
  /-- The state and what is present in it. -/
  phase : KeyPhase
  /-- The flags. -/
  flags : KeyFlags
  /-- The miss count. -/
  missCount : Nat
  /-- The last measured velocity. -/
  lastVelocity : Option Nat
  /-- The last lateness. -/
  lastLateness : Int
  deriving DecidableEq, Repr

/-- An entry of the strike queue (R117). -/
structure QueueEntry where
  /-- The key. -/
  key : Key
  /-- Its note's planned launch. -/
  planned : Time
  deriving DecidableEq, Repr

/-- The head status (R118). -/
inductive HeadStatus where
  | idle
  | timed
  | waiting
  deriving DecidableEq, Repr

/-- The strike queue (R117, R118). -/
structure StrikeQueue where
  /-- The entries, head first. -/
  entries : List QueueEntry
  /-- The head status. -/
  status : HeadStatus
  deriving DecidableEq, Repr

/-! ### Heat monitor (07_drive_power) -/

/-- The heat monitor's state (R137). -/
structure HeatMonitor where
  /-- The heat figure of each key. -/
  figures : Vector Nat 88
  /-- The working HEAT_WARN. -/
  warn : Nat
  /-- The working HEAT_MAX. -/
  max : Nat
  /-- The step timer: stopped, or the time of the next step. -/
  nextStep : Option Time
  deriving DecidableEq, Repr

/-! ### Hammer port and voicing table (08_hammer_sensing) -/

/-- The hammer port's state (08, table at the head). IDLE is `burst` empty. -/
structure HammerPort where
  /-- The bytes received so far in the burst, at most four. -/
  burst : List Byte
  /-- The overrun marking: the burst has delivered its report and still runs. -/
  overrun : Bool
  /-- Bytes have come after the fourth (R144). -/
  extra : Bool
  /-- The burst on the line is ignored until the line falls idle (R144). -/
  ignoring : Bool
  /-- HUB_DISCARDED. -/
  discarded : Nat
  /-- HAMMERS_IMPLAUSIBLE. -/
  implausible : Nat
  /-- UNEXPECTED_HAMMERS. -/
  unexpected : Nat
  deriving DecidableEq, Repr

/-- A voicing record (R152). -/
structure VoicingRecord where
  /-- The duty breakpoints. -/
  duties : Vector Nat 8
  /-- The flight breakpoints. -/
  flights : Vector Nat 8
  /-- The hold duty. -/
  holdDuty : Nat
  /-- The soft trim. -/
  softTrim : Int
  /-- The repeat gap, in ms. -/
  repeatGap : Nat
  deriving DecidableEq, Repr

/-! ### Pedal servo (09_pedals) -/

/-- The state of a pedal; the move start is present in MOVING (R163). -/
inductive PedalMode where
  | idle
  | moving (start : Time)
  | holding
  | fault
  deriving DecidableEq, Repr

/-- An entry of a pedal's event queue (R165). -/
structure PedalEvent where
  /-- The time. -/
  time : Time
  /-- The target. -/
  target : Nat
  deriving DecidableEq, Repr

/-- A pedal record (R163). -/
structure PedalRecord where
  /-- The state. -/
  mode : PedalMode
  /-- The owner. -/
  owner : Source
  /-- The target. -/
  target : Nat
  /-- The position. -/
  position : Nat
  /-- The last report time. -/
  lastReport : Option Time
  /-- The drive, which is the pedal's claim in the pool. -/
  drive : Nat
  /-- The event queue. -/
  events : List PedalEvent
  deriving DecidableEq, Repr

/-- The pedal servo. -/
structure PedalServo where
  /-- The SUSTAIN record. -/
  sustain : PedalRecord
  /-- The SHIFT record. -/
  shift : PedalRecord
  /-- The step timer: stopped, or the time of the next step (R168). -/
  nextStep : Option Time
  deriving DecidableEq, Repr

/-! ### Cue player (10_source_contexts, "The cue queue") -/

/-- A level that may be FOLLOW (R95, R182). -/
inductive CueLevel where
  | given (level : Nat)
  | follow
  deriving DecidableEq, Repr

/-- A cue queue entry (R182). -/
inductive CueEntry where
  | on (key : Key) (cueId : Byte) (level : CueLevel) (time : Time)
  | off (key : Option Key) (cueId : Byte) (time : Time)
  | pedal (pedal : Pedal) (position : Nat) (time : Time)
  | endPhrase (time : Time)
  deriving DecidableEq, Repr

/-- The cue player's state. -/
structure CuePlayer where
  /-- The cue queue, head first. -/
  entries : List CueEntry
  /-- The order reference. -/
  orderRef : Option Time
  /-- Phrase open. -/
  phraseOpen : Bool
  /-- ENTRIES_DROPPED. -/
  dropped : Nat
  deriving DecidableEq, Repr

/-! ### Host port (11_host_port) -/

/-- The result codes (R195). -/
inductive Result where
  | ok
  | badRequest
  | badArgument
  | notReady
  | notPermitted
  | busy
  | state
  | owned
  | notOwner
  | retired
  | order
  | full
  | inUse
  deriving DecidableEq, Repr

/-- A response frame (R192). -/
structure Response where
  /-- The request code echoed. -/
  code : Byte
  /-- The tag echoed. -/
  tag : Byte
  /-- The result. -/
  result : Result
  /-- The flag INTAKE_OVERFLOW. -/
  overflow : Bool
  /-- The data bytes. -/
  data : List Byte
  deriving DecidableEq, Repr

/-- The kinds of notice (11 "Notices"). -/
inductive NoticeKind where
  | trackLocked
  | trackLost
  | rollEnd
  | keyRetired
  | keyThermal
  | keyHoldTimeout
  | pedalFault
  | cueLow
  | phraseAbort
  | imageAbsent
  | imageInvalid
  | commitDone
  | commitFailed
  deriving DecidableEq, Repr

/-- A notice (R196). -/
structure Notice where
  /-- The kind. -/
  kind : NoticeKind
  /-- The flag LOST. -/
  lost : Bool
  /-- The time. -/
  time : Time
  /-- The bytes of the fields after the time. -/
  fields : List Byte
  deriving DecidableEq, Repr

/-- Which queue a read chose its frame from (R193). -/
inductive ReadChoice where
  | response
  | notice
  | nothing
  deriving DecidableEq, Repr

/-- A read transaction in progress (R193). -/
structure ReadInProgress where
  /-- Where the frame came from. -/
  choice : ReadChoice
  /-- The bytes of the frame. -/
  frame : List Byte
  deriving DecidableEq, Repr

/-- The host port's state (11, first table, and R193 for transactions). -/
structure HostPort where
  /-- The intake queue: each frame as the bytes of its transaction. -/
  intake : List (List Byte)
  /-- The response queue. -/
  responses : List Response
  /-- The notice queue. -/
  notices : List Notice
  /-- Overflow pending. -/
  overflowPending : Bool
  /-- FRAMES_DISCARDED. -/
  framesDiscarded : Nat
  /-- NOTICES_DISCARDED. -/
  noticesDiscarded : Nat
  /-- The read transaction in progress. -/
  reading : Option ReadInProgress
  /-- The transaction in progress is ignored to its end. -/
  ignoring : Bool
  /-- The bytes clocked out by the last read. -/
  output : List Byte
  deriving DecidableEq, Repr

/-! ### Image loader (11, "The voicing image" to "Committing the image") -/

/-- The image outcome (R200). -/
inductive ImageOutcome where
  | loaded
  | absent
  | invalid
  deriving DecidableEq, Repr

/-- Why an image is INVALID (R200). -/
inductive InvalidCause where
  | signature
  | length
  | crc
  deriving DecidableEq, Repr

/-- The outcome of the last commit (R198). -/
inductive CommitOutcome where
  | none
  | done
  | failed
  deriving DecidableEq, Repr

/-- A commit IN_FLIGHT (R203, R204). -/
structure Commit where
  /-- The copy of the settings. -/
  settings : Settings
  /-- The copy of the voicing table. -/
  voicing : Vector VoicingRecord 88
  /-- The CRC of the new words 0..1827. -/
  crc : Word16
  /-- The page whose write cycle is running, counted from 0 over the three stages. -/
  page : Nat
  /-- The start of that write cycle. -/
  cycleStart : Time
  /-- The word reached. -/
  wordReached : Nat
  deriving DecidableEq, Repr

end Sys2Proof.Machine
end

