-- ==== Sys2Proof/Machine/Defaults.lean ====
section
/-! DEFINITION. The full reset values of the blocks, as each chapter's tables give them. -/

namespace Sys2Proof.Machine

/-- Every scan receiver item at its full reset value (01_scan_link, table at the head; R16). -/
def Scan.atReset : Scan where
  buffers := Vector.replicate 4 []
  ignored := 0
  current := none
  reference := none
  restartPending := false
  restartMark := false
  linesDropped := 0
  headersCorrected := 0
  segmentsDiscarded := 0
  lastSyncFail := none
  lineTimer := none

/-- The working geometry that a set of settings gives (R18). -/
def workingGeometryOf (s : Settings) : WorkingGeometry where
  edgeRun := s.get .edgeRun
  nominalWidth := s.get .nominalWidth
  widthTol := s.get .widthTol
  spanRatio := s.get .spanRatio

/-- The geometry computed from C = 0 and W = 0: pitch 0, half-width max(1, 0), every centre at pixel 0
(R22, R36). -/
def Geometry.atReset : Geometry where
  pitch := 0
  halfWidth := 1
  pixel := Vector.replicate 102 0

/-- The tracker at its full reset values (R36). The working geometry and the last line are DESIGN CHOICE
values until the load completes and a line is taken (log 11). -/
def Tracker.atReset : Tracker where
  mode := .stopped
  centre := 0
  width := 0
  seeded := false
  geometry := Geometry.atReset
  lockCount := 0
  edgeFailures := 0
  endMarks := 0
  lastStates := Vector.replicate 102 false
  working := workingGeometryOf Settings.defaults
  lastLine := 0

/-- An EMPTY record with a blind marking. -/
def Aperture.emptied (blind : Bool) : Aperture := { blind := blind, life := .empty }

/-- The aperture table after the full reset (R56). -/
def ApertureTable.atReset : ApertureTable where
  records := Vector.replicate 102 (Aperture.emptied false)
  specks := 0
  notesMasked := 0
  notesOutOfRange := 0

/-- The reset values of a half context for a RESET_LEVEL (R58). -/
def HalfContext.atReset (resetLevel : Nat) : HalfContext where
  base := resetLevel
  effective := 16 * resetLevel
  crescendo := .none
  sforzando := false
  accent := false
  mode := .roll
  fixedLevel := 512
  offset := 0
  latch := none

/-- The expression unit after the full reset: the step timer stopped (R64). The contexts take their
values at the completion of the load; before it they are a DESIGN CHOICE (log 11). -/
def Expression.atReset : Expression where
  bass := HalfContext.atReset (Setting.row .resetLevel).dflt
  treble := HalfContext.atReset (Setting.row .resetLevel).dflt
  nextStep := none

/-- The default block with a priority (R179). -/
def ContextBlock.atReset (priority : Nat) : ContextBlock where
  enabled := true
  priority := priority
  transpose := 0
  keyLow := 1
  keyHigh := 88
  levelScale := 256

/-- Both blocks at their defaults (R179). -/
def Contexts.atReset : Contexts where
  roll := ContextBlock.atReset 1
  cue := ContextBlock.atReset 2

/-- A key record after the full reset (R108). -/
def KeyRecord.atReset : KeyRecord where
  phase := .idle
  flags := { mute := false, learnExclude := false, holdExempt := false }
  missCount := 0
  lastVelocity := none
  lastLateness := 0

/-- The strike queue after the full reset (R128). -/
def StrikeQueue.atReset : StrikeQueue where
  entries := []
  status := .idle

/-- The heat monitor after the full reset (R143). The working thresholds are loaded when the image load
completes; before it they are a DESIGN CHOICE (log 11). -/
def HeatMonitor.atReset : HeatMonitor where
  figures := Vector.replicate 88 0
  warn := (Setting.row .heatWarn).dflt
  max := (Setting.row .heatMax).dflt
  nextStep := none

/-- The hammer port after the full reset (R162). -/
def HammerPort.atReset : HammerPort where
  burst := []
  overrun := false
  extra := false
  ignoring := false
  discarded := 0
  implausible := 0
  unexpected := 0

/-- The factory voicing record (R152). -/
def VoicingRecord.factory : VoicingRecord where
  duties := #v[180, 230, 300, 380, 470, 560, 680, 900]
  flights := #v[1500, 1050, 780, 600, 480, 400, 330, 260]
  holdDuty := 180
  softTrim := -60
  repeatGap := 30

/-- A pedal record after the full reset (R178). -/
def PedalRecord.atReset : PedalRecord where
  mode := .idle
  owner := .roll
  target := 0
  position := 0
  lastReport := none
  drive := 0
  events := []

/-- The pedal servo after the full reset (R178). -/
def PedalServo.atReset : PedalServo where
  sustain := PedalRecord.atReset
  shift := PedalRecord.atReset
  nextStep := none

/-- The cue player after the full reset (R191). -/
def CuePlayer.atReset : CuePlayer where
  entries := []
  orderRef := none
  phraseOpen := false
  dropped := 0

/-- The host port after the full reset (R205). -/
def HostPort.atReset : HostPort where
  intake := []
  responses := []
  notices := []
  overflowPending := false
  framesDiscarded := 0
  noticesDiscarded := 0
  reading := none
  ignoring := false
  output := []

end Sys2Proof.Machine
end

