-- ==== Sys2Proof/Machine/State.lean ====
section
/-! DEFINITION. The state of the part, its reasons to stop, and its state right after reset. -/

namespace Sys2Proof.Machine

/-- The image loader's state (11, second table; R200 to R204). -/
structure ImageLoader where
  /-- The load state: READY, or LOADING when false. -/
  ready : Bool
  /-- The image outcome, absent while LOADING. -/
  outcome : Option ImageOutcome
  /-- The commit IN_FLIGHT, absent when the commit state is IDLE. -/
  commit : Option Commit
  /-- The outcome of the last commit. -/
  lastCommit : CommitOutcome
  /-- The bytes of the EEPROM, an attached device: strictly rising addresses, no entry equal to FF. -/
  eeprom : List Host.Cell
  deriving DecidableEq, Repr

/-- The image loader after the full reset, with an erased EEPROM (R205; log 7). -/
def ImageLoader.atReset : ImageLoader where
  ready := false
  outcome := none
  commit := none
  lastCommit := .none
  eeprom := []

/-- No command of the part stops with a fault: the part has no machine fault (INVENTORY.md, Faults). -/
inductive Fault where
  deriving DecidableEq, Repr

/-- Why a command is refused. -/
inductive Refusal where
  /-- Raised only by `exec`, for a command that has no meaning yet (no arm does). Safe: the run stops. -/
  | notModelled (mnemonic : String)
  deriving DecidableEq, Repr

/-- The state of the part (00_scope "Block overview"; INVENTORY.md, State). -/
structure State where
  /-- The performance clock (R198). -/
  clock : Time
  /-- The service pin level as last sampled (R197). -/
  servicePin : Bool
  /-- The settings (R199). -/
  settings : Settings
  /-- The scan receiver. -/
  scan : Scan
  /-- The roll tracker. -/
  tracker : Tracker
  /-- The aperture table. -/
  apertures : ApertureTable
  /-- The expression unit. -/
  expression : Expression
  /-- The source contexts. -/
  contexts : Contexts
  /-- The key records. -/
  keys : Vector KeyRecord 88
  /-- QUIET (R100). -/
  quiet : Bool
  /-- The strike queue. -/
  queue : StrikeQueue
  /-- The heat monitor. -/
  heat : HeatMonitor
  /-- The hammer port. -/
  hub : HammerPort
  /-- The voicing table (R152). -/
  voicing : Vector VoicingRecord 88
  /-- The pedal servo. -/
  pedals : PedalServo
  /-- The cue player. -/
  cue : CuePlayer
  /-- The host port. -/
  port : HostPort
  /-- The image loader. -/
  loader : ImageLoader
  /-- MODEL's own: how many open values have been drawn (log 9). -/
  openCount : Nat
  /-- MODEL's own: the commands waiting, first in, first out. -/
  pending : List Instr
  deriving DecidableEq, Repr

/-- The part right after the full reset at power-on (R205 and the table of each chapter). The EEPROM and
the service pin lie outside the part: an erased EEPROM is PRESUMED (log 7), a low pin a DESIGN CHOICE
(log 22). -/
def State.reset : State where
  clock := 0
  servicePin := false
  settings := Settings.defaults
  scan := Scan.atReset
  tracker := Tracker.atReset
  apertures := ApertureTable.atReset
  expression := Expression.atReset
  contexts := Contexts.atReset
  keys := Vector.replicate 88 KeyRecord.atReset
  quiet := false
  queue := StrikeQueue.atReset
  heat := HeatMonitor.atReset
  hub := HammerPort.atReset
  voicing := Vector.replicate 88 VoicingRecord.factory
  pedals := PedalServo.atReset
  cue := CuePlayer.atReset
  port := HostPort.atReset
  loader := ImageLoader.atReset
  openCount := 0
  pending := []

end Sys2Proof.Machine
end

