-- ==== Sys2Proof/Machine/Flags.lean ====
section
/-! DEFINITION. Saturating counters, the key flags as a set, and the flags the host sees. -/

namespace Sys2Proof.Machine

/-- A 16-bit counter that stops at 65535, after `n` more events. -/
def saturate (counter n : Nat) : Nat := min 65535 (counter + n)

/-- One more event on a 16-bit counter that stops at 65535. -/
def bump (counter : Nat) : Nat := saturate counter 1

/-- The flag set as a byte: MUTE bit 0, LEARN_EXCLUDE bit 1, HOLD_EXEMPT bit 2 (11, field table). -/
def KeyFlags.toByte (f : KeyFlags) : Byte :=
  byteOfBits f.mute f.learnExclude f.holdExempt
where
  /-- Three flags in the three low bits. -/
  byteOfBits (a b c : Bool) : Byte :=
    (if a then 1 else 0) + (if b then 2 else 0) + (if c then 4 else 0)

/-- Whether a mask holds nothing but the three flags (R98). -/
def maskValid (mask : Byte) : Bool := decide (mask.toNat < 8)

/-- The flags of the set mask set, then those of the clear mask cleared (R98). -/
def KeyFlags.amend (f : KeyFlags) (setMask clearMask : Byte) : KeyFlags where
  mute := (f.mute || setMask.getLsbD 0) && !clearMask.getLsbD 0
  learnExclude := (f.learnExclude || setMask.getLsbD 1) && !clearMask.getLsbD 1
  holdExempt := (f.holdExempt || setMask.getLsbD 2) && !clearMask.getLsbD 2

/-- ATTN: high while the response queue or the notice queue holds a frame (R193). -/
def State.attn (s : State) : Bool := !s.port.responses.isEmpty || !s.port.notices.isEmpty

end Sys2Proof.Machine
end

