-- ==== Sys2Proof/Machine/Ops.lean ====
section
/-! DEFINITION. The operations every block shares: clock arithmetic, tables, accessors, notices. -/

namespace Sys2Proof.Machine

/-! ### The performance clock (00_scope) -/

/-- The difference of two clock values as a signed 32-bit number. -/
def clockDiff (a b : Time) : Int := (a - b).toInt

/-- A time is past when the present minus it is zero or positive. -/
def reached (now due : Time) : Bool := decide (0 ≤ clockDiff now due)

/-- A clock value some microseconds after another; the count may be negative. -/
def timePlus (t : Time) (us : Int) : Time := t + BitVec.ofInt 32 us

/-- A value clamped to a..b (00_scope "Arithmetic"). -/
def clampInt (lo hi x : Int) : Int := max lo (min hi x)

/-- A value clamped to 0..hi, as a natural number. -/
def clampNat (hi : Nat) (x : Int) : Nat := min hi x.toNat

/-! ### Tables -/

/-- Every entry of a table replaced by a function of its index and its value. -/
def mapTable {α : Type} {n : Nat} (f : Fin n → α → α) (v : Vector α n) : Vector α n :=
  (List.finRange n).foldl (fun w (i : Fin n) => w.set i (f i v[i])) v

/-- Every key, in increasing order. -/
def allKeys : List Key := List.finRange 88

/-- Every channel, in increasing order. -/
def allChannels : List Channel := List.finRange 102

/-- The number 1..88 of a key. -/
def keyNumber (k : Key) : Nat := k.val + 1

/-- The key with a number, if it lies in 1..88. -/
def keyOfNumber (n : Nat) : Option Key :=
  if h : 1 ≤ n ∧ n ≤ 88 then some ⟨n - 1, by omega⟩ else none

/-! ### Accessors -/

/-- The record of a key. -/
def State.key (s : State) (k : Key) : KeyRecord := s.keys[k]

/-- The state with a key's record replaced. -/
def State.setKey (s : State) (k : Key) (r : KeyRecord) : State := { s with keys := s.keys.set k r }

/-- The state with a key's phase replaced. -/
def State.setPhase (s : State) (k : Key) (p : KeyPhase) : State :=
  s.setKey k { s.key k with phase := p }

/-- The voicing record of a key. -/
def State.voice (s : State) (k : Key) : VoicingRecord := s.voicing[k]

/-- The heat figure of a key. -/
def State.heatOf (s : State) (k : Key) : Nat := s.heat.figures[k]

/-- The context block of a source. -/
def State.context (s : State) : Source → ContextBlock
  | .roll => s.contexts.roll
  | .cue => s.contexts.cue

/-- The context of a half. -/
def State.half (s : State) : Half → HalfContext
  | .bass => s.expression.bass
  | .treble => s.expression.treble

/-- The state with the context of a half replaced. -/
def State.setHalf (s : State) (h : Half) (c : HalfContext) : State :=
  match h with
  | .bass => { s with expression := { s.expression with bass := c } }
  | .treble => { s with expression := { s.expression with treble := c } }

/-- The record of a pedal. -/
def State.pedal (s : State) : Pedal → PedalRecord
  | .sustain => s.pedals.sustain
  | .shift => s.pedals.shift

/-- The state with the record of a pedal replaced. -/
def State.setPedal (s : State) (p : Pedal) (r : PedalRecord) : State :=
  match p with
  | .sustain => { s with pedals := { s.pedals with sustain := r } }
  | .shift => { s with pedals := { s.pedals with shift := r } }

/-- The present value of a setting. -/
def State.setting (s : State) (x : Setting) : Nat := s.settings.get x

/-! ### Notices (R196) -/

/-- A notice raised: it joins the tail of the queue with the time of the moment, or, when the queue holds
32, it is discarded and counted and the notice at the tail is marked LOST. -/
def State.raise (s : State) (kind : NoticeKind) (fields : List Byte) : State :=
  if s.port.notices.length < 32 then
    { s with port := { s.port with
        notices := s.port.notices ++ [{ kind := kind, lost := false, time := s.clock, fields := fields }] } }
  else
    { s with port := { s.port with
        notices := markLast s.port.notices
        noticesDiscarded := bump s.port.noticesDiscarded } }
where
  /-- The last notice of the queue marked LOST. -/
  markLast : List Notice → List Notice
    | [] => []
    | [n] => [{ n with lost := true }]
    | n :: ns => n :: markLast ns

/-- The source byte of an owner: 0 none, 1 ROLL, 2 CUE (11, field table). -/
def sourceByte : Source → Byte
  | .roll => 1
  | .cue => 2

/-- An owner field (11, field table). The second byte of an owner that is none is sent as 0, the model's choice
(log 13). -/
def fieldOwner : Option Owner → List Byte
  | none => [0, 0]
  | some o => [sourceByte o.source, o.id]

/-- The number of a pedal in a frame: SUSTAIN 0, SHIFT 1. -/
def pedalNumber : Pedal → Nat
  | .sustain => 0
  | .shift => 1

/-- The owner field of a pedal: its source, and a second byte that the manual does not give (log 13). -/
def fieldPedalOwner (p : Pedal) (source : Source) : List Byte :=
  [sourceByte source, Config.pedalOwnerByte (pedalNumber p) (sourceByte source).toNat]

end Sys2Proof.Machine
end

