-- ==== Sys2Proof/Machine/Levels.lean ====
section
/-! DEFINITION. The expression unit's shared operations: control events, the output level, the levels of
notes (04_expression). -/

namespace Sys2Proof.Machine

/-- The half of a key (R69): BASS at or below SPLIT_KEY. -/
def keyHalf (s : State) (k : Key) : Half :=
  if keyNumber k ≤ s.setting .splitKey then .bass else .treble

/-- Both contexts at their reset values (R58), RESET_LEVEL read at this moment. -/
def resetContexts (s : State) : State :=
  { s with expression := { s.expression with
      bass := HalfContext.atReset (s.setting .resetLevel)
      treble := HalfContext.atReset (s.setting .resetLevel) } }

/-- The control functions of R50. -/
inductive ControlFunction where
  | stepUp
  | stepDown
  | crescSlow
  | crescFast
  | accent
  | sforzando
  deriving DecidableEq, Repr

/-- A step of the base level, and of the effective level when no crescendo runs (R60). -/
def stepContext (size : Int) (c : HalfContext) : HalfContext :=
  { c with
    base := clampNat 1023 (c.base + size)
    effective := if c.crescendo = .none then clampNat 16368 (c.effective + 16 * size) else c.effective }

/-- The crescendo table of R61: a speed added by a confirmation or removed by a close. -/
def crescendoAfter (fast confirmed : Bool) : Crescendo → Crescendo
  | .none => if confirmed then (if fast then .fast else .slow) else .none
  | .slow => if confirmed then (if fast then .both else .slow) else (if fast then .slow else .none)
  | .fast => if confirmed then (if fast then .fast else .both) else (if fast then .none else .fast)
  | .both => if confirmed then .both else (if fast then .slow else .fast)

/-- A control event on a context: a confirmation or a close (R59 to R63). -/
def controlContext (stepSize : Nat) (f : ControlFunction) (confirmed : Bool) (c : HalfContext) : HalfContext :=
  match f with
  | .stepUp => if confirmed then stepContext stepSize c else c
  | .stepDown => if confirmed then stepContext (-(stepSize : Int)) c else c
  | .crescSlow => { c with crescendo := crescendoAfter false confirmed c.crescendo }
  | .crescFast => { c with crescendo := crescendoAfter true confirmed c.crescendo }
  | .accent => { c with accent := confirmed }
  | .sforzando => { c with sforzando := confirmed }

/-- A control event taken at once on the context its half names (R59). -/
def controlEvent (h : Half) (f : ControlFunction) (confirmed : Bool) (s : State) : State :=
  s.setHalf h (controlContext (s.setting .stepSize) f confirmed (s.half h))

/-- The output level in ROLL mode (R66). -/
def rollLevel (sfzBoost : Nat) (c : HalfContext) : Nat :=
  if c.sforzando then min 1023 (c.effective / 16 + sfzBoost) else c.effective / 16

/-- The output level O of a context (R66). -/
def outputLevel (sfzBoost : Nat) (c : HalfContext) : Nat :=
  match c.mode with
  | .roll => rollLevel sfzBoost c
  | .fixed => c.fixedLevel
  | .offset => clampNat 1023 (rollLevel sfzBoost c + c.offset)

/-- The output level of a half as it stands (R66). -/
def State.output (s : State) (h : Half) : Nat := outputLevel (s.setting .sfzBoost) (s.half h)

/-- One expression step of a context (R65). -/
def rampContext (slowRate fastRate : Nat) (c : HalfContext) : HalfContext :=
  let target := if c.crescendo = .none then 16 * c.base else 16368
  let rate := if c.crescendo = .fast ∨ c.crescendo = .both then fastRate else slowRate
  if c.effective < target then { c with effective := min target (c.effective + rate) }
  else if target < c.effective then { c with effective := max target (c.effective - slowRate) }
  else c

/-- The chord part of a roll note's level, with the chord latch it leaves (R71). -/
def chordPart (window output : Nat) (onset : LineNo) (latch : Option ChordLatch) : Nat × Option ChordLatch :=
  if window = 0 then (output, latch)
  else
    match latch with
    | some l =>
      if (onset - l.start).toNat ≤ window then (l.level, some l)
      else (output, some { start := onset, level := output })
    | none => (output, some { start := onset, level := output })

/-- The note part of a roll note's level: the accent, then the ROLL level scale (R72). -/
def notePart (boost scale : Nat) (accent : Bool) (chord : Nat) : Nat :=
  min 1023 (if accent then chord + boost else chord) * scale / 256

/-- A level request for a roll note (R70 to R72): the level, and the state with its chord latch. -/
def rollNoteLevel (k : Key) (onset : LineNo) (accent : Bool) (s : State) : State × Nat :=
  let h := keyHalf s k
  let c := s.half h
  let (chord, latch) := chordPart (s.setting .chordWindow) (s.output h) onset c.latch
  (s.setHalf h { c with latch := latch },
    notePart (s.setting .accentBoost) s.contexts.roll.levelScale accent chord)

/-- A follow request: the output level of the key's half (R75). -/
def followLevel (s : State) (k : Key) : Nat := s.output (keyHalf s k)

/-- Both chord latches cleared (R73). -/
def clearLatches (s : State) : State :=
  { s with expression := { s.expression with
      bass := { s.expression.bass with latch := none }
      treble := { s.expression.treble with latch := none } } }

end Sys2Proof.Machine
end

