-- ==== Sys2Proof/Machine/Pool.lean ====
section
/-! DEFINITION. The drive pool: drive levels, claims and free units (07_drive_power R129 to R135, R80). -/

namespace Sys2Proof.Machine

/-- Whether a launched note drives: launched NORMAL, the key not MUTE and QUIET clear (R80). -/
def noteDrives (s : State) (flags : KeyFlags) (launch : Launch) : Bool :=
  decide (launch.mode = .normal) && !flags.mute && !s.quiet

/-- The drive level of a key record (R80). -/
def recordDrive (s : State) (r : KeyRecord) : Nat :=
  match r.phase with
  | .strike _ values launch _ _ _ => if noteDrives s r.flags launch then values.duty else 0
  | .hold _ _ launch duty _ => if noteDrives s r.flags launch then duty else 0
  | _ => 0

/-- The drive level of a key, which is its claim in the pool (R80, R129). -/
def driveLevel (s : State) (k : Key) : Nat := recordDrive s (s.key k)

/-- The sum of the 90 claims (R129). -/
def claimSum (s : State) : Nat :=
  (allKeys.map (driveLevel s)).sum + s.pedals.sustain.drive + s.pedals.shift.drive

/-- The free units: the capacity less the sum of the claims (R129). -/
def freeUnits (s : State) : Nat := s.setting .poolCapacity - claimSum s

/-- Whether the pool grants a strike of a duty (R130). -/
def poolGrants (s : State) (duty : Nat) : Bool := decide (duty ≤ freeUnits s)

/-- A claim that grows outside a strike grant: no further than its present value plus the free units
(R131). -/
def limitedClaim (s : State) (present wanted : Nat) : Nat := min wanted (present + freeUnits s)

/-- What the drive output presents for a key (R135). -/
def driveOutput (s : State) (k : Key) : Nat := if s.loader.ready then driveLevel s k else 0

/-- What the drive output presents for a pedal (R135). -/
def pedalOutput (s : State) (p : Pedal) : Nat := if s.loader.ready then (s.pedal p).drive else 0

end Sys2Proof.Machine
end

