-- ==== Sys2Proof/Machine/Strikes.lean ====
section
/-! DEFINITION. Strike computation, the strike queue, the examination of its head and the launch
(06_strike_computation). -/

namespace Sys2Proof.Machine

/-! ### From level to strike values (R109 to R115) -/

/-- The eight fixed breakpoint velocities (R111). -/
def breakpointVelocity : Fin 8 → Nat
  | 0 => 20
  | 1 => 40
  | 2 => 70
  | 3 => 110
  | 4 => 160
  | 5 => 220
  | 6 => 300
  | 7 => 450

/-- The velocity code of a level (R111). -/
def velocityCode (velMin velMax level : Nat) : Nat := velMin + ((velMax - velMin) * level + 511) / 1023

/-- The interval index of a velocity code (R112): the largest whose breakpoint is at most the code. -/
def intervalIndex (c : Nat) : Fin 7 :=
  if 300 ≤ c then 6 else if 220 ≤ c then 5 else if 160 ≤ c then 4 else if 110 ≤ c then 3
  else if 70 ≤ c then 2 else if 40 ≤ c then 1 else 0

/-- The fraction of a velocity code in its interval (R112). -/
def fractionOf (c : Nat) (i : Fin 7) : Nat :=
  (c - breakpointVelocity i.castSucc) * 256 /
    (breakpointVelocity i.succ - breakpointVelocity i.castSucc)

/-- Straight-line interpolation between two breakpoints (R113, R114). -/
def interpolate (curve : Vector Nat 8) (i : Fin 7) (f : Nat) : Int :=
  (curve[i.castSucc] : Int) + (((curve[i.succ] : Int) - curve[i.castSucc]) * f + 128) / 256

/-- The trim of a soft trim at a SHIFT position (R113). -/
def trimOf (softTrim : Int) (shift : Nat) : Int := (softTrim * shift + 511) / 1023

/-- The strike values of a note of a level and sound time (R111 to R115). -/
def strikeValuesOf (velMin velMax : Nat) (v : VoicingRecord) (shift level : Nat) (sound : Time) : StrikeValues :=
  let c := velocityCode velMin velMax level
  let i := intervalIndex c
  let f := fractionOf c i
  let flight := (interpolate v.flights i f).toNat
  { velocity := c
    interval := i
    fraction := f
    duty := (clampInt 1 1023 (interpolate v.duties i f + trimOf v.softTrim shift)).toNat
    flight := flight
    planned := timePlus sound (-(100 * (flight : Int)))
    shift := shift }

/-- A computation of a note on a key with what stands at this moment (R109). -/
def computeStrike (s : State) (k : Key) (n : Note) : StrikeValues :=
  strikeValuesOf (s.setting .velMin) (s.setting .velMax) (s.voice k) s.pedals.shift.position n.level n.sound

/-- The level a note's first computation uses: a CUE note's level scaled by the CUE level scale (R110). -/
def firstLevel (s : State) (n : Note) : Note :=
  match n.claimant.source with
  | .roll => n
  | .cue => { n with level := min 1023 (n.level * s.contexts.cue.levelScale / 256) }

/-! ### The strike queue (R117, R118) -/

/-- Whether entry `x` stands after entry `e`: by planned launch as differences from the present, then by
key number (R117). -/
def standsAfter (now : Time) (x e : QueueEntry) : Bool :=
  decide (clockDiff e.planned now < clockDiff x.planned now ∨
    (clockDiff e.planned now = clockDiff x.planned now ∧ e.key < x.key))

/-- An entry placed in front of the first entry that stands after it, or at the tail (R117). -/
def placeEntry (now : Time) (e : QueueEntry) : List QueueEntry → List QueueEntry
  | [] => [e]
  | x :: xs => if standsAfter now x e then e :: x :: xs else x :: placeEntry now e xs

/-- The queue without a key's entry. -/
def withoutKey (k : Key) (q : List QueueEntry) : List QueueEntry := q.filter fun e => e.key ≠ k

/-- The state with other queue entries. -/
def State.setEntries (s : State) (q : List QueueEntry) : State :=
  { s with queue := { s.queue with entries := q } }

/-- The state with another head status. -/
def State.setStatus (s : State) (h : HeadStatus) : State := { s with queue := { s.queue with status := h } }

/-- A key's entry leaves the queue (R117). -/
def dequeue (k : Key) (s : State) : State := s.setEntries (withoutKey k s.queue.entries)

/-- A key enters PENDING with a computed note, and its entry the queue (R86, R117). An entry the key
already has leaves first (R83, R123). -/
def enterPending (k : Key) (n : Note) (v : StrikeValues) (s : State) : State :=
  (s.setPhase k (.pending n v)).setEntries
    (placeEntry s.clock { key := k, planned := v.planned } (withoutKey k s.queue.entries))

/-! ### Examination and launch (R119, R120, R124) -/

/-- The fields a launch sets (R124): for COOL the lateness is 0. -/
def launchFields (s : State) (v : StrikeValues) (mode : LaunchMode) : Launch where
  actual := s.clock
  limit := timePlus s.clock (100 * (v.flight : Int) + 1000 * (s.setting .strikeMargin : Int))
  mode := mode
  lateness := if mode = .cool then 0 else clockDiff s.clock v.planned

/-- Whether a launch sets the sensed marking (R124). -/
def launchSensed (s : State) (mode : LaunchMode) : Bool :=
  decide (mode = .normal) && decide (s.setting .sensing = 1)

/-- The end of an unsensed strike: the actual launch plus the flight (R126). -/
def unsensedEnd (v : StrikeValues) (l : Launch) : Time := timePlus l.actual (100 * (v.flight : Int))

/-- A key's record after the launch of its note (R89, R124). -/
def launchedRecord (s : State) (mode : LaunchMode) (r : KeyRecord) : KeyRecord :=
  match r.phase with
  | .pending n v =>
    let l := launchFields s v mode
    let sensed := launchSensed s mode
    { r with
      phase := .strike n v l sensed (if sensed then l.limit else unsensedEnd v l) none
      lastLateness := l.lateness }
  | _ => r

/-- The head's key launched in a mode: its entry leaves the queue and the key enters STRIKE (R119). -/
def launchKey (mode : LaunchMode) (k : Key) (s : State) : State :=
  (s.setKey k (launchedRecord s mode (s.key k))).setEntries (withoutKey k s.queue.entries)

/-- The duty a PENDING key's note asks for. -/
def pendingDuty (r : KeyRecord) : Nat :=
  match r.phase with
  | .pending _ v => v.duty
  | _ => 0

/-- How an examination launches the head's key, or none when the pool refuses (R119). -/
def launchDecision (s : State) (k : Key) : Option LaunchMode :=
  if s.heat.max ≤ s.heatOf k then some .cool
  else if (s.key k).flags.mute || s.quiet then some .muted
  else if poolGrants s (pendingDuty (s.key k)) then some .normal
  else none

/-- The head examined, and each new head whose planned launch has come, until the queue is empty, a head
has not come, or the pool refuses (R118 to R120). A head that was WAITING and whose planned launch now reads as
future is TIMED and not launched, the model's choice (log 33). The number bounds the launches. -/
def examineLoop : Nat → State → State
  | 0, s => s
  | n + 1, s =>
    match s.queue.entries with
    | [] => s.setStatus .idle
    | e :: _ =>
      if reached s.clock e.planned then
        match launchDecision s e.key with
        | some mode => examineLoop n (launchKey mode e.key s)
        | none => s.setStatus .waiting
      else s.setStatus .timed

/-- The examination of the head (R119, R120). -/
def examineHead (s : State) : State := examineLoop (s.queue.entries.length + 1) s

/-- The head after an event that changed the queue or the claims (R118, R121, R132): it is examined once
when another entry has become the head, when the key `placed` in this event stands at the head, or when
the head was WAITING. `before` is the head before the event. -/
def settleHead (before : Option QueueEntry) (placed : Option Key) (s : State) : State :=
  if s.queue.entries.head? ≠ before ∨ s.queue.status = .waiting
      ∨ (placed.isSome ∧ s.queue.entries.head?.map QueueEntry.key = placed) then
    examineHead s
  else s

/-- An event on the queue and the claims, followed by the one examination it calls for (R132). -/
def settling (placed : Option Key) (f : State → State) (s : State) : State :=
  settleHead s.queue.entries.head? placed (f s)

/-- A WAITING head examined again (R121). -/
def reexamineHead (s : State) : State := if s.queue.status = .waiting then examineHead s else s

end Sys2Proof.Machine
end

