-- ==== Sys2Proof/Machine/KeyOps.lean ====
section
/-! DEFINITION. The key table's shared operations: owners, claims, closes, strike ends, withdrawal,
retirement and the hold timeout (05_the_key_table). None of them examines the head of the strike queue:
the event that calls them does so once, with `settling` (R132). -/

namespace Sys2Proof.Machine

/-! ### Owner and drive (R79) -/

/-- The owner of a key (R79). -/
def phaseOwner : KeyPhase → Option Owner
  | .idle => none
  | .pending n _ => some n.claimant
  | .strike n _ _ _ _ none => some n.claimant
  | .strike _ _ _ _ _ (some m) => some m.claimant
  | .hold n _ _ _ _ => some n.claimant
  | .damp _ => none
  | .waiting m _ => some m.claimant
  | .retired _ => none

/-- The owner of a key. -/
def State.owner (s : State) (k : Key) : Option Owner := phaseOwner (s.key k).phase

/-- Whether a key's owner is of a source. -/
def ownedBy (source : Source) (p : KeyPhase) : Bool :=
  match phaseOwner p with
  | some o => decide (o.source = source)
  | none => false

/-- The number of a key state in a frame, in the order R78 lists them. -/
def phaseNumber : KeyPhase → Nat
  | .idle => 0
  | .pending _ _ => 1
  | .strike _ _ _ _ _ _ => 2
  | .hold _ _ _ _ _ => 3
  | .damp _ => 4
  | .waiting _ _ => 5
  | .retired _ => 6

/-- Whether a phase is PENDING. -/
def isPending : KeyPhase → Bool
  | .pending _ _ => true
  | _ => false

/-- The gap end that a key gets now: the present plus its repeat gap (R84, R90, R92). -/
def gapEndNow (s : State) (k : Key) : Time := timePlus s.clock (1000 * ((s.voice k).repeatGap : Int))

/-! ### Many keys at once -/

/-- Every key's phase replaced at once; the entries of keys no longer PENDING leave the queue (R117). -/
def updatePhases (f : Key → KeyRecord → KeyPhase) (s : State) : State :=
  let keys := mapTable (fun k r => { r with phase := f k r }) s.keys
  { s with
    keys := keys
    queue := { s.queue with entries := s.queue.entries.filter fun e => isPending keys[e.key].phase } }

/-- What a withdrawal leaves of a phase (R97, R106, R188). -/
def withdrawnPhase (now gapEnd : Time) : KeyPhase → KeyPhase
  | .idle => .idle
  | .pending _ _ => .idle
  | .strike n v l sensed t none => .strike { n with release := some now } v l sensed t none
  | .strike n v l sensed t (some _) => .strike n v l sensed t none
  | .hold _ _ _ _ _ => .damp gapEnd
  | .damp g => .damp g
  | .waiting _ g => .damp g
  | .retired r => .retired r

/-- What ALL_OFF leaves of a phase (R101), and a narrowing of a key outside the range (R107). -/
def silencedPhase (gapEnd : Time) : KeyPhase → KeyPhase
  | .idle => .idle
  | .pending _ _ => .idle
  | .strike _ _ _ _ _ _ => .damp gapEnd
  | .hold _ _ _ _ _ => .damp gapEnd
  | .damp g => .damp g
  | .waiting _ g => .damp g
  | .retired r => .retired r

/-- Every key owned by a source withdrawn (R106 for ROLL, R107 for a disabling, R188 for an underrun). -/
def withdrawSource (source : Source) (s : State) : State :=
  updatePhases (fun k r =>
    if ownedBy source r.phase then withdrawnPhase s.clock (gapEndNow s k) r.phase else r.phase) s

/-- Every key silenced (R100, R101). -/
def silenceKeys (s : State) : State :=
  updatePhases (fun k r => silencedPhase (gapEndNow s k) r.phase) s

/-- The keys of a source outside a key range silenced (R107). -/
def silenceOutside (source : Source) (low high : Nat) (s : State) : State :=
  updatePhases (fun k r =>
    if ownedBy source r.phase && !(decide (low ≤ keyNumber k ∧ keyNumber k ≤ high)) then
      silencedPhase (gapEndNow s k) r.phase
    else r.phase) s

/-- How many keys have an owner of a source. -/
def countOwned (source : Source) (s : State) : Nat :=
  (allKeys.filter fun k => ownedBy source (s.key k).phase).length

/-! ### Claims (R81 to R86) -/

/-- What a note's level is formed from (R86). -/
inductive LevelFrom where
  /-- A ROLL note: the onset line and the accent field of its open (R70). -/
  | roll (onset : LineNo) (accent : Bool)
  /-- A CUE note with a level. -/
  | given (level : Nat)
  /-- A CUE note marked FOLLOW (R75). -/
  | follow
  deriving DecidableEq, Repr

/-- A claim (05, "Claims"). -/
structure Claim where
  /-- The key. -/
  key : Key
  /-- The claimant. -/
  claimant : Owner
  /-- The sound time. -/
  sound : Time
  /-- What the level is formed from. -/
  level : LevelFrom
  deriving DecidableEq, Repr

/-- What becomes of a claim. -/
inductive ClaimAnswer where
  /-- The source is disabled. -/
  | disabled
  /-- The key is RETIRED. -/
  | retired
  /-- The owner's priority is higher. -/
  | owned
  /-- Taken; the number of the state the key entered. -/
  | taken (state : Nat)
  deriving DecidableEq, Repr

/-- A note levelled when it is taken (R86). -/
def levelNote (c : Claim) (s : State) : State × Note :=
  let leveled := match c.level with
    | .roll onset accent => rollNoteLevel c.key onset accent s
    | .given level => (s, level)
    | .follow => (s, followLevel s c.key)
  (leveled.1, { claimant := c.claimant, sound := c.sound, level := leveled.2, release := none })

/-- A note taken into PENDING: computed for the first time and queued (R86, R109, R110). -/
def placeNote (k : Key) (n : Note) (s : State) : State :=
  enterPending k (firstLevel s n) (computeStrike s k (firstLevel s n)) s

/-- A claim that has passed its tests, taken against the key's state (R81, R83, R84, R85). -/
def takeClaim (c : Claim) (s : State) : State :=
  let (s1, n) := levelNote c s
  match (s1.key c.key).phase with
  | .idle => placeNote c.key n s1
  | .pending _ _ => placeNote c.key n s1
  | .strike m v l sensed t none =>
    s1.setPhase c.key (.strike { m with release := some s1.clock } v l sensed t (some n))
  | .strike m v l sensed t (some _) => s1.setPhase c.key (.strike m v l sensed t (some n))
  | .hold _ _ _ _ _ => s1.setPhase c.key (.waiting n (gapEndNow s1 c.key))
  | .damp g => s1.setPhase c.key (.waiting n g)
  | .waiting _ g => s1.setPhase c.key (.waiting n g)
  | .retired _ => s

/-- Whether a claim passes the priority test (R82); a key without an owner needs none (R81). -/
def passesPriority (c : Claim) (s : State) : Bool :=
  match s.owner c.key with
  | some o => decide ((s.context o.source).priority ≤ (s.context c.claimant.source).priority)
  | none => true

/-- Whether a phase is RETIRED. -/
def isRetired : KeyPhase → Bool
  | .retired _ => true
  | _ => false

/-- A claim taken or refused (R81, R82), with the examination of the head that it calls for. -/
def claim (c : Claim) (s : State) : State × ClaimAnswer :=
  if !(s.context c.claimant.source).enabled then (s, .disabled)
  else if isRetired (s.key c.key).phase then (s, .retired)
  else if !passesPriority c s then (s, .owned)
  else
    (settling (some c.key) (takeClaim c) s,
      .taken (phaseNumber ((takeClaim c s).key c.key).phase))

/-! ### Closes (R87, R88) -/

/-- The release time of a matching close stored, and a HOLD key whose release time has passed sent to
DAMP (R88). -/
def storeRelease (k : Key) (release : Time) (s : State) : State :=
  match (s.key k).phase with
  | .pending n v => s.setPhase k (.pending { n with release := some release } v)
  | .strike n v l sensed t none =>
    s.setPhase k (.strike { n with release := some release } v l sensed t none)
  | .strike n v l sensed t (some m) =>
    s.setPhase k (.strike n v l sensed t (some { m with release := some release }))
  | .hold n v l d start =>
    if reached s.clock release then s.setPhase k (.damp (gapEndNow s k))
    else s.setPhase k (.hold { n with release := some release } v l d start)
  | .waiting m g => s.setPhase k (.waiting { m with release := some release } g)
  | _ => s

/-- A close of a key for an owner: taken when it matches (R87). -/
def closeKey (o : Owner) (release : Time) (k : Key) (s : State) : State :=
  if s.owner k = some o then storeRelease k release s else s

/-- A close of every key of an owner, in increasing key order (R96, R185). -/
def closeAll (o : Owner) (release : Time) (s : State) : State :=
  allKeys.foldl (fun t k => closeKey o release k t) s

/-- The keys of an owner, in increasing order. -/
def keysOf (o : Owner) (s : State) : List Key := allKeys.filter fun k => decide (s.owner k = some o)

/-! ### Retirement (R104) -/

/-- The number of a retire reason in a frame. -/
def reasonNumber : RetireReason → Nat
  | .host => 0
  | .noHammer => 1
  | .fault => 2

/-- A key retired: notes discarded, its entry out of the queue, the notice KEY_RETIRED (R104). -/
def retireKey (k : Key) (reason : RetireReason) (s : State) : State :=
  (dequeue k (s.setPhase k (.retired reason))).raise .keyRetired
    ([byteOf (keyNumber k), byteOf (reasonNumber reason)] ++ fieldOwner (s.owner k))

/-! ### Strike end (R90, R91, R139) -/

/-- The nominal hold duty of a key: halved at or above the working HEAT_WARN (R139). -/
def nominalHold (s : State) (k : Key) : Nat :=
  if s.heat.warn ≤ s.heatOf k then (s.voice k).holdDuty / 2 else (s.voice k).holdDuty

/-- The hold duty in use that a key gets, given its present claim (R139, R131). -/
def holdDutyFor (s : State) (k : Key) (launch : Launch) (present : Nat) : Nat :=
  if noteDrives s (s.key k).flags launch then limitedClaim s present (nominalHold s k)
  else nominalHold s k

/-- The notice KEY_THERMAL for a key, with its phase number HOLD 0 or STRIKE 1 (R140, R141). -/
def raiseThermal (k : Key) (phase : Nat) (owner : Option Owner) (s : State) : State :=
  s.raise .keyThermal
    ([byteOf (keyNumber k)] ++ fieldOwner owner ++ field32 (s.heatOf k) ++ [byteOf phase])

/-- Whether a note's release time is present and not later than now. -/
def releaseDue (s : State) (n : Note) : Bool :=
  match n.release with
  | some r => reached s.clock r
  | none => false

/-- A strike end that does not retire the key: the first case of R90 that holds. -/
def endStrike (k : Key) (s : State) : State :=
  match (s.key k).phase with
  | .strike _ _ _ _ _ (some m) => s.setPhase k (.waiting m (gapEndNow s k))
  | .strike n v l _ _ none =>
    if releaseDue s n then s.setPhase k (.damp (gapEndNow s k))
    else if s.heat.max ≤ s.heatOf k then
      raiseThermal k 1 (some n.claimant) (s.setPhase k (.damp (gapEndNow s k)))
    else s.setPhase k (.hold n v l (holdDutyFor s k l (driveLevel s k)) s.clock)
  | _ => s

/-- The end of a sensed strike at its strike limit: a miss, and retirement at the third (R91, R127). -/
def missStrike (k : Key) (s : State) : State :=
  let r := s.key k
  let s1 := s.setKey k { r with missCount := r.missCount + 1 }
  if 3 ≤ r.missCount + 1 then retireKey k .noHammer s1 else endStrike k s1

/-- A strike made unsensed: the end timer moves to the actual launch plus the flight, and a strike whose
time has passed ends at once (R126). -/
def unsenseStrike (k : Key) (s : State) : State :=
  match (s.key k).phase with
  | .strike n v l _ _ m =>
    let s1 := s.setPhase k (.strike n v l false (unsensedEnd v l) m)
    if reached s.clock (unsensedEnd v l) then endStrike k s1 else s1
  | _ => s

/-! ### Hold timeout (R94a) -/

/-- The time at which a key in HOLD is timed out, if it can be (R94a). -/
def holdDue (s : State) (k : Key) : Option Time :=
  match (s.key k).phase with
  | .hold _ _ _ _ start =>
    if s.setting .holdTimeout = 0 ∨ (s.key k).flags.holdExempt then none
    else some (timePlus start (1000000 * (s.setting .holdTimeout : Int)))
  | _ => none

/-- A key in HOLD timed out: DAMP, and the notice KEY_HOLD_TIMEOUT (R94a). -/
def timeOutKey (k : Key) (s : State) : State :=
  match (s.key k).phase with
  | .hold n _ _ _ start =>
    (s.setPhase k (.damp (gapEndNow s k))).raise .keyHoldTimeout
      ([byteOf (keyNumber k)] ++ fieldOwner (some n.claimant) ++ fieldTime start)
  | _ => s

/-- A key timed out if its time in HOLD has reached HOLD_TIMEOUT. -/
def timeOutIfDue (k : Key) (s : State) : State :=
  match holdDue s k with
  | some due => if reached s.clock due then timeOutKey k s else s
  | none => s

/-- Every key whose time in HOLD has reached HOLD_TIMEOUT timed out, in key order (log 30). -/
def timeOutDue (s : State) : State := allKeys.foldl (fun t k => timeOutIfDue k t) s

/-- How many microseconds from the present a key's timeout comes: 0 when it has come. -/
def timeoutOffset (s : State) (k : Key) : Option Nat :=
  match holdDue s k with
  | some due => if reached s.clock due then some 0 else some (due - s.clock).toNat
  | none => none

/-- The earliest timeout that comes within a number of microseconds, the lowest key first. -/
def firstTimeout (s : State) (within : Nat) : Option (Nat × Key) :=
  allKeys.foldl (fun best k =>
    match timeoutOffset s k with
    | none => best
    | some o =>
      if within < o then best
      else match best with
        | none => some (o, k)
        | some b => if o < b.1 then some (o, k) else best) none

/-- The clock moved on to a time. -/
def State.atTime (s : State) (t : Time) : State := { s with clock := t }

/-- The clock moved on to `t`, with the hold timeouts that come on the way taken each at its own time, in
order of time. The number bounds the timeouts. -/
def arriveLoop : Nat → Time → State → State
  | 0, t, s => s.atTime t
  | n + 1, t, s =>
    match firstTimeout s (t - s.clock).toNat with
    | none => s.atTime t
    | some (o, k) => arriveLoop n t (settling none (timeOutKey k) (s.atTime (timePlus s.clock o)))

/-! ### Requests of the source CUE -/

/-- The owner of a CUE note. -/
def cueOwner (cueId : Byte) : Owner := { source := .cue, id := cueId }

end Sys2Proof.Machine
end

