-- ==== Sys2Proof/Machine/PedalOps.lean ====
section
/-! DEFINITION. The pedal servo's shared operations: the event queue, the targets, the servo step
(09_pedals). -/

namespace Sys2Proof.Machine

/-- An event placed behind every entry whose time is not later, by the signed difference (R165). -/
def placeEvent (e : PedalEvent) : List PedalEvent → List PedalEvent
  | [] => [e]
  | x :: xs => if 0 < clockDiff x.time e.time then e :: x :: xs else x :: placeEvent e xs

/-- An event inserted in a queue of up to 8 entries; into a full one in place of the last (R165). -/
def insertEvent (e : PedalEvent) (q : List PedalEvent) : List PedalEvent :=
  placeEvent e (if q.length < 8 then q else q.take 7)

/-- The entries at the head whose time has come leave the queue in order, each setting the target
(R167). -/
def drainEvents (now : Time) : List PedalEvent → Nat → List PedalEvent × Nat
  | [], target => ([], target)
  | e :: es, target => if reached now e.time then drainEvents now es e.target else (e :: es, target)

/-- The due entries of a pedal's queue applied (R167). -/
def applyDueEvents (p : Pedal) (s : State) : State :=
  let r := s.pedal p
  let d := drainEvents s.clock r.events r.target
  s.setPedal p { r with events := d.1, target := d.2 }

/-- A roll pedal event: it joins the queue of a ROLL-owned pedal that is not in FAULT, and is dropped
otherwise (R166); one whose time has come is due at once (R167). -/
def rollPedalEvent (p : Pedal) (time : Time) (target : Nat) (s : State) : State :=
  let r := s.pedal p
  if r.owner = .roll ∧ r.mode ≠ .fault then
    applyDueEvents p (s.setPedal p { r with events := insertEvent { time := time, target := target } r.events })
  else s

/-- A pedal target set for source CUE (R171): the tests for FAULT and OWNED, then the effect. -/
def cuePedal (p : Pedal) (position : Nat) (s : State) : State × Result :=
  let r := s.pedal p
  if r.mode = .fault then (s, .state)
  else if r.owner = .roll ∧ s.contexts.cue.priority < s.contexts.roll.priority then (s, .owned)
  else (s.setPedal p { r with owner := .cue, events := [], target := position }, .ok)

/-- A pedal let go: its queue emptied and its target 0 (R174). -/
def PedalRecord.letGo (r : PedalRecord) : PedalRecord := { r with events := [], target := 0 }

/-- The roll withdrawal at the servo (R174). -/
def withdrawPedals (s : State) : State :=
  { s with pedals := { s.pedals with
      sustain := if s.pedals.sustain.owner = .roll then s.pedals.sustain.letGo else s.pedals.sustain
      shift := if s.pedals.shift.owner = .roll then s.pedals.shift.letGo else s.pedals.shift } }

/-- ALL_OFF at the servo (R174). -/
def releasePedals (s : State) : State :=
  { s with pedals := { s.pedals with
      sustain := s.pedals.sustain.letGo
      shift := s.pedals.shift.letGo } }

/-- The error of a pedal: target minus position (R169). -/
def pedalError (r : PedalRecord) : Int := (r.target : Int) - r.position

/-- Whether a pedal lies within PEDAL_DEADBAND of its target (R169). -/
def withinDeadband (s : State) (r : PedalRecord) : Bool :=
  decide ((pedalError r).natAbs ≤ s.setting .pedalDeadband)

/-- The drive that the servo's formula calls for in MOVING and HOLDING (R169). -/
def pedalRequest (s : State) (r : PedalRecord) : Nat :=
  clampNat 1023 (((s.setting .pedalHold * r.target / 1023 : Nat) : Int)
    + (s.setting .pedalGain : Int) * pedalError r / 8)

/-- The drive the pool gives a pedal for a request (R133). -/
def givenDrive (s : State) (r : PedalRecord) (request : Nat) : Nat := limitedClaim s r.drive request

/-- The move start of a pedal classed MOVING now (R169). -/
def moveStart (s : State) (r : PedalRecord) : Time :=
  match r.mode with
  | .moving start => start
  | _ => s.clock

/-- Whether a spell of MOVING has lasted longer than PEDAL_SETTLE (R170). -/
def settleExceeded (s : State) (start : Time) : Bool :=
  decide (1000 * (s.setting .pedalSettle : Int) < clockDiff s.clock start)

/-- Entry to FAULT: drive cut, queue emptied, the notice PEDAL_FAULT (R170). -/
def faultPedal (p : Pedal) (start : Time) (s : State) : State :=
  let r := s.pedal p
  (s.setPedal p { r with mode := .fault, drive := 0, events := [] }).raise .pedalFault
    ([byteOf (pedalNumber p)] ++ fieldPedalOwner p r.owner ++ field16 r.target ++ field16 r.position
      ++ fieldTime start)

/-- One servo step of a pedal (R169, R170). -/
def stepPedal (p : Pedal) (s : State) : State :=
  let r := s.pedal p
  if r.mode = .fault then s
  else if withinDeadband s r then
    if r.target = 0 then s.setPedal p { r with mode := .idle, drive := givenDrive s r 0 }
    else s.setPedal p { r with mode := .holding, drive := givenDrive s r (pedalRequest s r) }
  else if settleExceeded s (moveStart s r) then faultPedal p (moveStart s r) s
  else s.setPedal p { r with
    mode := .moving (moveStart s r)
    drive := givenDrive s r (pedalRequest s r) }

end Sys2Proof.Machine
end

