-- ==== Sys2Proof/Machine/ApertureOps.lean ====
section
/-! DEFINITION. The aperture table: the life of an aperture over the lines, the mapping of notes, and the
events sent on (03_the_aperture_table). -/

namespace Sys2Proof.Machine

/-! ### Channels and keys -/

/-- What a channel is used for (00_scope "Tracker channels"). -/
inductive ChannelUse where
  | control (half : Half) (function : ControlFunction)
  | pedal (pedal : Pedal)
  | note (rollKey : Nat)
  deriving DecidableEq, Repr

/-- The control functions by position within a side's group (R50). -/
def controlAt : Nat → ControlFunction
  | 0 => .stepUp
  | 1 => .stepDown
  | 2 => .crescSlow
  | 3 => .crescFast
  | 4 => .accent
  | _ => .sforzando

/-- The use of a channel, read from its number (00_scope "Tracker channels"). -/
def channelUse (c : Channel) : ChannelUse :=
  if c.val < 6 then .control .bass (controlAt c.val)
  else if c.val = 6 then .pedal .sustain
  else if c.val < 95 then .note (c.val - 6)
  else if c.val < 101 then .control .treble (controlAt (c.val - 95))
  else .pedal .shift

/-- A raw key folded by octaves into 1..88 (R47). -/
def foldedNumber (raw : Int) : Int :=
  if raw < 1 then 1 + (raw - 1) % 12 else if 88 < raw then 88 - (88 - raw) % 12 else raw

/-- A raw key folded by octaves (R47). -/
def foldedKey (raw : Int) : Key :=
  ⟨(foldedNumber raw - 1).toNat, by unfold foldedNumber; omega⟩

/-- A key number transposed and folded by a context (R47, and 05 "Host play requests"). -/
def transposedKey (c : ContextBlock) (number : Nat) : Key := foldedKey (number + c.transpose)

/-- Whether a key lies in a context's key range. -/
def inKeyRange (c : ContextBlock) (k : Key) : Bool := decide (c.keyLow ≤ keyNumber k ∧ keyNumber k ≤ c.keyHigh)

/-- The mapping of a note channel at its confirmation (R46, R47). -/
def mapNote (c : ContextBlock) (rollKey : Nat) : Mapping :=
  if !c.enabled then .disabled
  else if inKeyRange c (transposedKey c rollKey) then .key (transposedKey c rollKey)
  else .outOfRange

/-- The mapping a channel's aperture gets at its confirmation: none off the note channels (R37). -/
def confirmMapping (s : State) (c : Channel) : Option Mapping :=
  match channelUse c with
  | .note rollKey => some (mapNote s.contexts.roll rollKey)
  | _ => none

/-! ### The transitions of one line (R39 to R43) -/

/-- What arises from a record on a line. -/
inductive ApertureEvent where
  /-- A confirmation, with the onset and the mapping (R41). -/
  | confirmed (onsetLine : LineNo) (onsetTime : Time) (mapping : Option Mapping)
  /-- A close, with the mapping and the close time (R43). -/
  | closed (mapping : Option Mapping) (closeTime : Time)
  /-- A speck (R41). -/
  | speck
  deriving DecidableEq, Repr

/-- A TENTATIVE record with a seen count: confirmed when it reaches or passes CONFIRM_LINES (R40, R41). -/
def seenAperture (confirmLines : Nat) (mapping : Option Mapping) (onsetLine : LineNo) (onsetTime : Time)
    (seen : Nat) : Aperture × Option ApertureEvent :=
  if confirmLines ≤ seen then
    ({ blind := false, life := .opened onsetLine onsetTime mapping },
      some (.confirmed onsetLine onsetTime mapping))
  else ({ blind := false, life := .tentative onsetLine onsetTime seen }, none)

/-- A BRIDGING record with an absent count: closed when it exceeds BRIDGE_LINES (R42, R43). -/
def absentAperture (bridgeLines : Nat) (onsetLine : LineNo) (onsetTime : Time) (mapping : Option Mapping)
    (closeLine : LineNo) (closeTime : Time) (absent : Nat) : Aperture × Option ApertureEvent :=
  if bridgeLines < absent then (Aperture.emptied false, some (.closed mapping closeTime))
  else ({ blind := false, life := .bridging onsetLine onsetTime mapping closeLine closeTime absent }, none)

/-- The transition of one record on a sampled line (R39 to R43). `mapping` is the mapping it gets if it is
confirmed on this line. -/
def lineTransition (confirmLines bridgeLines : Nat) (mapping : Option Mapping) (line : LineNo) (time : Time)
    (isOpen : Bool) (a : Aperture) : Aperture × Option ApertureEvent :=
  match a.life with
  | .empty =>
    if a.blind then ({ a with blind := isOpen }, none)
    else if isOpen then seenAperture confirmLines mapping line time 1
    else (a, none)
  | .tentative onsetLine onsetTime seen =>
    if isOpen then seenAperture confirmLines mapping onsetLine onsetTime (seen + 1)
    else (Aperture.emptied false, some .speck)
  | .opened onsetLine onsetTime m =>
    if isOpen then (a, none) else absentAperture bridgeLines onsetLine onsetTime m line time 1
  | .bridging onsetLine onsetTime m closeLine closeTime absent =>
    if isOpen then ({ a with life := .opened onsetLine onsetTime m }, none)
    else absentAperture bridgeLines onsetLine onsetTime m closeLine closeTime (absent + 1)

/-! ### The events of a line (R44 to R51) -/

/-- A time one PERF_LATENCY after the paper (R48, R49). -/
def latencyAfter (s : State) (t : Time) : Time := timePlus t (100 * (s.setting .perfLatency : Int))

/-- The owner of a roll note (R48). -/
def rollOwner (c : Channel) : Owner := { source := .roll, id := byteOf c.val }

/-- The ACCENT record's channel of a half (R48). -/
def accentChannel : Half → Channel
  | .bass => 4
  | .treble => 99

/-- The accent field of a note on a key: its half's ACCENT record is TENTATIVE or OPEN (R48). -/
def accentFor (s : State) (k : Key) : Bool :=
  match (s.apertures.records[accentChannel (keyHalf s k)]).life with
  | .tentative _ _ _ => true
  | .opened _ _ _ => true
  | _ => false

/-- NOTES_MASKED counts one more (R53). -/
def countMasked (s : State) : State :=
  { s with apertures := { s.apertures with notesMasked := bump s.apertures.notesMasked } }

/-- A note open taken by the key table; a refused one counts in NOTES_MASKED (R48, R81, R82). -/
def rollNoteOpen (c : Channel) (k : Key) (onsetLine : LineNo) (onsetTime : Time) (s : State) : State :=
  let answer := claim
    { key := k
      claimant := rollOwner c
      sound := latencyAfter s onsetTime
      level := .roll onsetLine (accentFor s k) } s
  match answer.2 with
  | .taken _ => answer.1
  | _ => countMasked answer.1

/-- A note close taken by the key table (R49, R87). -/
def rollNoteClose (c : Channel) (k : Key) (closeTime : Time) (s : State) : State :=
  settling none (closeKey (rollOwner c) (latencyAfter s closeTime) k) s

/-- The time of a pedal engage: one latency after the onset less PEDAL_LEAD_ON (R51). -/
def engageTime (s : State) (onsetTime : Time) : Time :=
  timePlus (latencyAfter s onsetTime) (-(1000 * (s.setting .pedalLeadOn : Int)))

/-- The time of a pedal release: one latency after the close less PEDAL_LEAD_OFF (R51). -/
def releaseTimeOf (s : State) (closeTime : Time) : Time :=
  timePlus (latencyAfter s closeTime) (-(1000 * (s.setting .pedalLeadOff : Int)))

/-- The first group of R44: a control event to the expression unit (R50). -/
def sendControl (c : Channel) (e : ApertureEvent) (s : State) : State :=
  match channelUse c, e with
  | .control h f, .confirmed _ _ _ => controlEvent h f true s
  | .control h f, .closed _ _ => controlEvent h f false s
  | _, _ => s

/-- The second group of R44: a note close to the key table (R49). -/
def sendNoteClose (c : Channel) (e : ApertureEvent) (s : State) : State :=
  match channelUse c, e with
  | .note _, .closed (some (.key k)) closeTime => rollNoteClose c k closeTime s
  | _, _ => s

/-- The third group of R44: a note open to the key table (R48). -/
def sendNoteOpen (c : Channel) (e : ApertureEvent) (s : State) : State :=
  match channelUse c, e with
  | .note _, .confirmed onsetLine onsetTime (some (.key k)) => rollNoteOpen c k onsetLine onsetTime s
  | _, _ => s

/-- The fourth group of R44: a pedal event to the servo (R51, R166). -/
def sendPedal (c : Channel) (e : ApertureEvent) (s : State) : State :=
  match channelUse c, e with
  | .pedal p, .confirmed _ onsetTime _ =>
    rollPedalEvent p (engageTime s onsetTime) (s.setting .pedalEngagePos) s
  | .pedal p, .closed _ closeTime => rollPedalEvent p (releaseTimeOf s closeTime) 0 s
  | _, _ => s

/-- Events sent by one group's sender, in order. -/
def sendGroup (send : Channel → ApertureEvent → State → State) (events : List (Channel × ApertureEvent))
    (s : State) : State :=
  events.foldl (fun t e => send e.1 e.2 t) s

/-- The events of a line sent in the four groups of R44. -/
def sendEvents (events : List (Channel × ApertureEvent)) (s : State) : State :=
  sendGroup sendPedal events (sendGroup sendNoteOpen events (sendGroup sendNoteClose events
    (sendGroup sendControl events s)))

/-- How an event counts in the table's counters: specks, masked notes, notes out of range (R53). -/
def countEvent (a : ApertureTable) : ApertureEvent → ApertureTable
  | .speck => { a with specks := bump a.specks }
  | .confirmed _ _ (some .disabled) => { a with notesMasked := bump a.notesMasked }
  | .confirmed _ _ (some .outOfRange) => { a with notesOutOfRange := bump a.notesOutOfRange }
  | _ => a

/-- The transitions of the 102 records on a line. -/
def lineResults (line : LineNo) (time : Time) (states : Vector Bool 102) (s : State) :
    List (Channel × (Aperture × Option ApertureEvent)) :=
  allChannels.map fun c =>
    (c, lineTransition (s.setting .confirmLines) (s.setting .bridgeLines) (confirmMapping s c) line time
      states[c] s.apertures.records[c])

/-- A sampled or held line taken whole: 102 transitions, then the events (R38, R44). That no expression step and
no CONFIG_WRITE falls inside the line's handling, which R44 and R69 allow, is the model's choice (log 29). -/
def takeSampledLine (line : LineNo) (time : Time) (states : Vector Bool 102) (s : State) : State :=
  let results := lineResults line time states s
  let events := results.filterMap fun r => r.2.2.map fun e => (r.1, e)
  let records := results.foldl (fun v r => v.set r.1 r.2.1) s.apertures.records
  sendEvents events { s with
    apertures := events.foldl (fun a e => countEvent a e.2) { s.apertures with records := records } }

/-! ### Emptying and blind marking (R52) -/

/-- The emptying: every record EMPTY with blind clear, no event (R52). -/
def emptyApertures (s : State) : State :=
  { s with apertures := { s.apertures with records := Vector.replicate 102 (Aperture.emptied false) } }

/-- The lock mark: blind set on the channels open on the locking line and cleared on the others (R52). -/
def lockMark (states : Vector Bool 102) (s : State) : State :=
  { s with apertures := { s.apertures with
      records := mapTable (fun c a => { a with blind := states[c] }) s.apertures.records } }

/-- The blind marking of ROLL_START: every record EMPTY and blind, the counters 0 (R52). -/
def blindApertures (s : State) : State :=
  { s with apertures :=
    { records := Vector.replicate 102 (Aperture.emptied true)
      specks := 0
      notesMasked := 0
      notesOutOfRange := 0 } }

end Sys2Proof.Machine
end

