-- ==== Sys2Proof/Machine/Operands.lean ====
section
/-! DEFINITION. The argument bytes of requests: the request code table and the fields it names
(11_host_port "Frames", "Request codes"). -/

namespace Sys2Proof.Machine

/-! ### The request code table -/

/-- Whether the request code table gives a code this many argument bytes; false for an unknown code. -/
def argumentsAllowed (code count : Nat) : Bool :=
  match code with
  | 0x01 | 0x02 | 0x05 | 0x08 | 0x09 | 0x0A | 0x17 | 0x27 | 0x28 | 0x2C => decide (count = 0)
  | 0x03 | 0x0C | 0x0D | 0x11 | 0x18 | 0x1A | 0x1B | 0x1C | 0x1D => decide (count = 1)
  | 0x21 | 0x22 | 0x23 | 0x24 | 0x2A => decide (count = 1)
  | 0x16 => decide (count = 2)
  | 0x20 => decide (count = 3)
  | 0x10 => decide (count = 4)
  | 0x04 | 0x19 => decide (count = 5)
  | 0x15 => decide (count = 7)
  | 0x14 | 0x25 => decide (count = 8)
  | 0x26 => decide (8 ≤ count ∧ count ≤ 57 ∧ count % 7 = 1)
  | 0x2B => decide (count = 39)
  | _ => false

/-- The request code of a frame, 00 for a byte it did not carry (R195). -/
def frameCode (f : List Byte) : Byte := f.getD 1 0

/-- The tag of a frame, 00 for a byte it did not carry (R195). -/
def frameTag (f : List Byte) : Byte := f.getD 2 0

/-- The argument bytes of a frame. -/
def frameArguments (f : List Byte) : List Byte := f.drop 3

/-- Whether a frame passes the BAD_REQUEST test of R195. -/
def frameGood (f : List Byte) : Bool :=
  decide (3 ≤ f.length ∧ f.length ≤ 64 ∧ (f.getD 0 0).toNat = f.length)
    && argumentsAllowed (frameCode f).toNat (f.length - 3)

/-- The frame of a request: count, code, tag, arguments (11 "Frames"). -/
def requestFrame (code : Nat) (tag : Byte) (arguments : List Byte) : List Byte :=
  byteOf (arguments.length + 3) :: byteOf code :: tag :: arguments

/-! ### Fields -/

/-- The one-byte argument at a place. -/
def argByte (arguments : List Byte) (i : Nat) : Nat := (arguments.getD i 0).toNat

/-- The two-byte argument at a place. -/
def arg16 (arguments : List Byte) (i : Nat) : Nat := valueOf ((arguments.drop i).take 2)

/-- The four-byte argument at a place. -/
def arg32 (arguments : List Byte) (i : Nat) : Nat := valueOf ((arguments.drop i).take 4)

/-- The time argument at a place. -/
def argTime (arguments : List Byte) (i : Nat) : Time := BitVec.ofNat 32 (arg32 arguments i)

/-- A half: BASS 0, TREBLE 1. -/
def halfOfNumber : Nat → Option Half
  | 0 => some .bass
  | 1 => some .treble
  | _ => none

/-- A source named by a request: ROLL 0, CUE 1 (log 13). -/
def sourceOfNumber : Nat → Option Source
  | 0 => some .roll
  | 1 => some .cue
  | _ => none

/-- A pedal: SUSTAIN 0, SHIFT 1. -/
def pedalOfNumber : Nat → Option Pedal
  | 0 => some .sustain
  | 1 => some .shift
  | _ => none

/-- A channel, 0..101. -/
def channelOfNumber (n : Nat) : Option Channel := if h : n < 102 then some ⟨n, h⟩ else none

/-- A level that allows FOLLOW: FFFF is FOLLOW, 0..1023 a level, any other value is out of range. -/
def cueLevelOf (n : Nat) : Option CueLevel :=
  if n = 0xFFFF then some .follow else if n ≤ 1023 then some (.given n) else none

/-- An ON or OFF argument. -/
def boolOfNumber : Nat → Option Bool
  | 0 => some false
  | 1 => some true
  | _ => none

end Sys2Proof.Machine
end

