-- ==== Sys2Proof/Machine/PortOps.lean ====
section
/-! DEFINITION. The host port: response and notice frames, and the execution of the request at the head of
the intake (11_host_port R192 to R196). -/

namespace Sys2Proof.Machine

/-! ### Frames -/

/-- The result codes (R195). -/
def resultCode : Result → Byte
  | .ok => 0x00
  | .badRequest => 0x01
  | .badArgument => 0x02
  | .notReady => 0x03
  | .notPermitted => 0x04
  | .busy => 0x05
  | .state => 0x06
  | .owned => 0x07
  | .notOwner => 0x08
  | .retired => 0x09
  | .order => 0x0A
  | .full => 0x0B
  | .inUse => 0x0C

/-- The kinds of notice (11 "Notices"). -/
def noticeCode : NoticeKind → Byte
  | .trackLocked => 0x01
  | .trackLost => 0x02
  | .rollEnd => 0x03
  | .keyRetired => 0x04
  | .keyThermal => 0x05
  | .keyHoldTimeout => 0x06
  | .pedalFault => 0x07
  | .cueLow => 0x08
  | .phraseAbort => 0x09
  | .imageAbsent => 0x0A
  | .imageInvalid => 0x0B
  | .commitDone => 0x0C
  | .commitFailed => 0x0D

/-- The bytes of a response frame: count, code, tag, result, flags, data. -/
def responseFrame (r : Response) : List Byte :=
  byteOf (r.data.length + 5) :: r.code :: r.tag :: resultCode r.result :: (if r.overflow then 1 else 0) :: r.data

/-- The bytes of a notice frame: count, FF, kind, flags, time, fields. -/
def noticeFrame (n : Notice) : List Byte :=
  byteOf (n.fields.length + 8) :: 0xFF :: noticeCode n.kind :: (if n.lost then 1 else 0)
    :: (fieldTime n.time ++ n.fields)

/-! ### Responses (R194, R195) -/

/-- The state with another host port. -/
def State.setPort (s : State) (p : HostPort) : State := { s with port := p }

/-- A response placed at the tail of the response queue; it carries INTAKE_OVERFLOW when that is owed
(R194). -/
def State.respond (s : State) (code tag : Byte) (result : Result) (data : List Byte) : State :=
  s.setPort { s.port with
    responses := s.port.responses ++
      [{ code := code, tag := tag, result := result, overflow := s.port.overflowPending, data := data }]
    overflowPending := false }

/-- What a request does: the state it leaves, its result and the data of its answer. -/
structure Answer where
  /-- The state. -/
  state : State
  /-- The result. -/
  result : Result
  /-- The data. -/
  data : List Byte
  deriving DecidableEq, Repr

/-- Answered OK. -/
def answerOk (s : State) (data : List Byte) : Answer := { state := s, result := .ok, data := data }

/-- Refused with a result, nothing changed. -/
def refuse (s : State) (r : Result) : Answer := { state := s, result := r, data := [] }

/-- The frame at the head of the intake, when the response queue has room for its answer (R195). -/
def headFrame (s : State) : Option (List Byte) :=
  if s.port.responses.length < 16 then s.port.intake.head? else none

/-- The state without the frame at the head of the intake. -/
def State.dropHead (s : State) : State := s.setPort { s.port with intake := s.port.intake.tail }

/-- The request at the head of the intake executed, if it is a good frame of this code: NOT_READY while
LOADING (but for STATUS), else the tests and the effect of its owning rule (R195). Nothing is executed when
the head is another frame or the response queue is full (log 5). -/
def serveRequest (code : Nat) (whileLoading : Bool) (act : List Byte → State → Answer) (s : State) : State :=
  match headFrame s with
  | none => s
  | some f =>
    if frameGood f ∧ (frameCode f).toNat = code then
      if s.loader.ready ∨ whileLoading then
        let a := act (frameArguments f) s.dropHead
        a.state.respond (frameCode f) (frameTag f) a.result a.data
      else s.dropHead.respond (frameCode f) (frameTag f) .notReady []
    else s

/-- The frame at the head of the intake answered BAD_REQUEST, if it is a bad frame (R195). -/
def serveBadRequest (s : State) : State :=
  match headFrame s with
  | none => s
  | some f =>
    if frameGood f then s else s.dropHead.respond (frameCode f) (frameTag f) .badRequest []

/-! ### Transactions (R193, R194) -/

/-- A frame offered to the intake at the rise of the chip select (R194). -/
def offerFrame (f : List Byte) (s : State) : State :=
  if s.port.intake.length < 8 then s.setPort { s.port with intake := s.port.intake ++ [f] }
  else s.setPort { s.port with
    framesDiscarded := bump s.port.framesDiscarded
    overflowPending := true }

/-- The frame a read chooses at the fall of its chip select (R193). -/
def chooseFrame (s : State) : ReadInProgress :=
  match s.port.responses, s.port.notices with
  | r :: _, _ => { choice := .response, frame := responseFrame r }
  | [], n :: _ => { choice := .notice, frame := noticeFrame n }
  | [], [] => { choice := .nothing, frame := [0x01] }

/-- The bytes a read of so many bytes sees: the frame, then 00 (R193). -/
def clockedOut (frame : List Byte) (clocked : Nat) : List Byte :=
  (frame ++ List.replicate (clocked - frame.length) 0).take clocked

/-- The chosen frame leaves its queue. -/
def removeChosen (choice : ReadChoice) (p : HostPort) : HostPort :=
  match choice with
  | .response => { p with responses := p.responses.tail }
  | .notice => { p with notices := p.notices.tail }
  | .nothing => p

/-- The fall of the chip select of a read (R193). -/
def readFall (s : State) : State :=
  s.setPort { s.port with reading := some (chooseFrame s), ignoring := false }

/-- The rise of the chip select of a transaction that is ignored to its end, one of no bytes or one in
progress since a full reset (R193). -/
def endIgnored (s : State) : State := s.setPort { s.port with reading := none, ignoring := false }

/-- The rise of the chip select of a read after so many bytes (R193). -/
def readRise (clocked : Nat) (s : State) : State :=
  match s.port.reading with
  | none => endIgnored s
  | some r =>
    if clocked = 0 then endIgnored s
    else
      let out := { s.port with reading := none, output := clockedOut r.frame clocked }
      s.setPort (if r.frame.length ≤ clocked then removeChosen r.choice out else out)

end Sys2Proof.Machine
end

