-- ==== Sys2Proof/Machine/Arrival.lean ====
section
/-! DEFINITION. What stands when a command is taken: the requests KEY_FIND that the table has no row for are
executed (R105a, R195; log 3), and the performance clock comes to the command's time (log 1 and 4). -/

namespace Sys2Proof.Machine

/-- KEY_FIND (R105a): the keys of the cue id, in increasing order. -/
def actKeyFind (arguments : List Byte) (s : State) : Answer :=
  answerOk s (fieldList ((keysOf (cueOwner (arguments.getD 0 0)) s).map fun k => [byteOf (keyNumber k)]))

/-- What the part does when no command waits: a KEY_FIND at the head of the intake is executed; else it
idles (log 3). -/
def idle (s : State) : State := serveRequest 0x1B false actKeyFind s

/-- So many frames at the head of the intake executed, while they are KEY_FIND (log 3). -/
def serveKeyFinds : Nat → State → State
  | 0, s => s
  | n + 1, s => serveKeyFinds n (idle s)

/-- What stands when the performance clock has come to `t`: every command but FULL_RESET begins with it. The
KEY_FIND requests that had come to the head of the intake have been executed there, and the hold timeouts on
the way have been taken (log 1, 3 and 4). -/
def State.arrive (s : State) (t : Time) : State := arriveLoop 88 t (serveKeyFinds s.port.intake.length s)

end Sys2Proof.Machine
end

