-- ==== Sys2Proof/Machine/Apertures.lean ====
section
/-! DEFINITION. The aperture requests: APERTURE_QUERY and APERTURE_CLOSE (03_the_aperture_table R54,
R55). -/

namespace Sys2Proof.Machine

/-- The number of an aperture state in a frame. -/
def lifeNumber : ApertureLife → Nat
  | .empty => 0
  | .tentative _ _ _ => 1
  | .opened _ _ _ => 2
  | .bridging _ _ _ _ _ _ => 3

/-- An aperture mapping in a frame: the mapped key, F0 DISABLED, F1 OUT_OF_RANGE. -/
def fieldMapping : Mapping → List Byte
  | .key k => [byteOf (keyNumber k)]
  | .disabled => [0xF0]
  | .outOfRange => [0xF1]

/-! ### APERTURE_QUERY (R54) -/

/-- The fields of R37 after the state and the blind marking, in the table's order. -/
def lifeFields : ApertureLife → List Byte
  | .empty => lifeBytes none none none none none none none
  | .tentative l t seen => lifeBytes (some l) (some t) (some seen) none none none none
  | .opened l t m => lifeBytes (some l) (some t) none m none none none
  | .bridging l t m cl ct absent => lifeBytes (some l) (some t) none m (some cl) (some ct) (some absent)
where
  /-- The optional fields in order: onset line, onset time, seen count, mapping, close line, close time,
  absent count. -/
  lifeBytes (onsetLine : Option LineNo) (onsetTime : Option Time) (seen : Option Nat)
      (mapping : Option Mapping) (closeLine : Option LineNo) (closeTime : Option Time)
      (absent : Option Nat) : List Byte :=
    fieldOptional 2 (onsetLine.map fieldLine) ++ fieldOptional 4 (onsetTime.map fieldTime)
      ++ fieldOptional 1 (seen.map fun n => [byteOf n]) ++ fieldOptional 1 (mapping.map fieldMapping)
      ++ fieldOptional 2 (closeLine.map fieldLine) ++ fieldOptional 4 (closeTime.map fieldTime)
      ++ fieldOptional 1 (absent.map fun n => [byteOf n])

/-- The data of an APERTURE_QUERY (R54). The blind marking is sent as 0 when clear and 1 when set (log 13). -/
def apertureData (a : Aperture) : List Byte :=
  [byteOf (lifeNumber a.life)] ++ fieldBool a.blind ++ lifeFields a.life

/-- APERTURE_QUERY (R54). -/
def actApertureQuery (arguments : List Byte) (s : State) : Answer :=
  match channelOfNumber (argByte arguments 0) with
  | some c => answerOk s (apertureData s.apertures.records[c])
  | none => refuse s .badArgument

/-- APERTURE_QUERY (R54), code 0C. -/
def execApertureQuery (t : Time) (s : State) : Host.Outcome State Fault Refusal :=
  .next (serveRequest 0x0C false actApertureQuery (s.arrive t))

/-! ### APERTURE_CLOSE (R55) -/

/-- The record of a channel retired: EMPTY and blind (R55). -/
def blindRecord (c : Channel) (s : State) : State :=
  { s with apertures := { s.apertures with records := s.apertures.records.set c (Aperture.emptied true) } }

/-- The close event of a channel sent to the receiver of its function (R49, R50, R51). -/
def sendClose (c : Channel) (mapping : Option Mapping) (s : State) : State :=
  let e := ApertureEvent.closed mapping s.clock
  sendPedal c e (sendNoteClose c e (sendControl c e s))

/-- What an APERTURE_CLOSE does to a channel (R55). -/
def closeAperture (c : Channel) (s : State) : State :=
  match (s.apertures.records[c]).life with
  | .empty => blindRecord c s
  | .tentative _ _ _ => blindRecord c s
  | .opened _ _ m => sendClose c m (blindRecord c s)
  | .bridging _ _ m _ _ _ => sendClose c m (blindRecord c s)

/-- APERTURE_CLOSE (R55). -/
def actApertureClose (arguments : List Byte) (s : State) : Answer :=
  match channelOfNumber (argByte arguments 0) with
  | some c => answerOk (closeAperture c s) [byteOf (lifeNumber (s.apertures.records[c]).life)]
  | none => refuse s .badArgument

/-- APERTURE_CLOSE (R55), code 0D. -/
def execApertureClose (t : Time) (s : State) : Host.Outcome State Fault Refusal :=
  .next (serveRequest 0x0D false actApertureClose (s.arrive t))

end Sys2Proof.Machine
end

