-- ==== Sys2Proof/Machine/ContextRequests.lean ====
section
/-! DEFINITION. The requests of the source contexts: CONTEXT_READ and CONTEXT_WRITE (10_source_contexts
R179 to R181, 05_the_key_table R107). -/

namespace Sys2Proof.Machine

/-! ### CONTEXT_READ (R180) -/

/-- The data of a CONTEXT_READ (R180). -/
def contextData (c : ContextBlock) : List Byte :=
  fieldBool c.enabled ++ [byteOf c.priority, byteOfInt c.transpose, byteOf c.keyLow, byteOf c.keyHigh]
    ++ field16 c.levelScale

/-- CONTEXT_READ (R180). -/
def actContextRead (arguments : List Byte) (s : State) : Answer :=
  match sourceOfNumber (argByte arguments 0) with
  | some source => answerOk s (contextData (s.context source))
  | none => refuse s .badArgument

/-- CONTEXT_READ (R180), code 24. -/
def execContextRead (t : Time) (s : State) : Host.Outcome State Fault Refusal :=
  .next (serveRequest 0x24 false actContextRead (s.arrive t))

/-! ### CONTEXT_WRITE (R181) -/

/-- Whether the fields of a block lie in their ranges and key low is at most key high (R179, R181). -/
def ContextBlock.valid (c : ContextBlock) : Bool :=
  decide (c.priority ≤ 3 ∧ -24 ≤ c.transpose ∧ c.transpose ≤ 24 ∧ 1 ≤ c.keyLow ∧ c.keyLow ≤ c.keyHigh
    ∧ c.keyHigh ≤ 88 ∧ c.levelScale ≤ 256)

/-- The block a CONTEXT_WRITE carries, or none when it is refused (R181). -/
def parseBlock (arguments : List Byte) : Option ContextBlock :=
  match boolOfNumber (argByte arguments 1) with
  | none => none
  | some enabled =>
    let c : ContextBlock :=
      { enabled := enabled
        priority := argByte arguments 2
        transpose := signedValue 8 (argByte arguments 3)
        keyLow := argByte arguments 4
        keyHigh := argByte arguments 5
        levelScale := arg16 arguments 6 }
    if c.valid then some c else none

/-- The state with the block of a source replaced. -/
def State.setContext (s : State) (source : Source) (c : ContextBlock) : State :=
  match source with
  | .roll => { s with contexts := { s.contexts with roll := c } }
  | .cue => { s with contexts := { s.contexts with cue := c } }

/-- A new range that leaves out some key of the old one (R181). -/
def narrows (old new : ContextBlock) : Bool := decide (old.keyLow < new.keyLow ∨ new.keyHigh < old.keyHigh)

/-- What a write does to the keys of its source (R107, R181): a disabling withdraws them, else a
narrowing silences those outside the new range. -/
def contextChange (source : Source) (old new : ContextBlock) (s : State) : State :=
  if old.enabled && !new.enabled then settling none (withdrawSource source) s
  else if narrows old new then settling none (silenceOutside source new.keyLow new.keyHigh) s
  else s

/-- CONTEXT_WRITE (R181). -/
def actContextWrite (arguments : List Byte) (s : State) : Answer :=
  match sourceOfNumber (argByte arguments 0), parseBlock arguments with
  | some source, some c => answerOk (contextChange source (s.context source) c (s.setContext source c)) []
  | _, _ => refuse s .badArgument

/-- CONTEXT_WRITE (R181), code 25. -/
def execContextWrite (t : Time) (s : State) : Host.Outcome State Fault Refusal :=
  .next (serveRequest 0x25 false actContextWrite (s.arrive t))

end Sys2Proof.Machine
end

