-- ==== Sys2Proof/Machine/CueOps.lean ====
section
/-! DEFINITION. The cue player: due times, the application of entries, low water and underrun
(10_source_contexts R182 to R188). -/

namespace Sys2Proof.Machine

/-- The time of an entry. -/
def CueEntry.time : CueEntry → Time
  | .on _ _ _ t => t
  | .off _ _ t => t
  | .pedal _ _ t => t
  | .endPhrase t => t

/-- The due time of an entry: PEDAL_LEAD_ON before the time of a PEDAL entry, CUE_LOOKAHEAD before any
other (R184). -/
def cueDue (s : State) (e : CueEntry) : Time :=
  match e with
  | .pedal _ _ t => timePlus t (-(1000 * (s.setting .pedalLeadOn : Int)))
  | _ => timePlus e.time (-(1000 * (s.setting .cueLookahead : Int)))

/-- Whether an entry's due time has come (R184). An entry whose own time reads as past is due at once, also
where its time is so far ahead that only its due time still reads as future (R182). -/
def cueReached (s : State) (e : CueEntry) : Bool := reached s.clock e.time || reached s.clock (cueDue s e)

/-- The state with another cue player. -/
def State.setCue (s : State) (c : CuePlayer) : State := { s with cue := c }

/-- ENTRIES_DROPPED counts one more (R185, R186). -/
def countDropped (s : State) : State := s.setCue { s.cue with dropped := bump s.cue.dropped }

/-- What a cue level is formed from (R86). -/
def cueLevelFrom : CueLevel → LevelFrom
  | .given n => .given n
  | .follow => .follow

/-- An ON entry applied (R185). -/
def applyOn (key : Key) (cueId : Byte) (level : CueLevel) (time : Time) (s : State) : State :=
  let opened := s.setCue { s.cue with phraseOpen := true }
  let k := transposedKey opened.contexts.cue (keyNumber key)
  if !opened.contexts.cue.enabled || !inKeyRange opened.contexts.cue k then countDropped opened
  else
    let answer := claim
      { key := k, claimant := cueOwner cueId, sound := time, level := cueLevelFrom level } opened
    match answer.2 with
    | .taken _ => answer.1
    | _ => countDropped answer.1

/-- An OFF entry applied (R185). -/
def applyOff (key : Option Key) (cueId : Byte) (time : Time) (s : State) : State :=
  match key with
  | none => settling none (closeAll (cueOwner cueId) time) s
  | some k =>
    settling none (closeKey (cueOwner cueId) time (transposedKey s.contexts.cue (keyNumber k))) s

/-- A PEDAL entry applied (R172, R186). -/
def applyPedal (p : Pedal) (position : Nat) (s : State) : State :=
  let answer := cuePedal p position s
  if answer.2 = .ok then answer.1 else countDropped answer.1

/-- An entry applied (R185, R186). -/
def applyEntry (e : CueEntry) (s : State) : State :=
  match e with
  | .on key cueId level time => applyOn key cueId level time s
  | .off key cueId time => applyOff key cueId time s
  | .pedal p position _ => applyPedal p position s
  | .endPhrase _ => s.setCue { s.cue with phraseOpen := false }

/-- The low-water test after an application (R187). -/
def lowWaterTest (s : State) : State :=
  if s.cue.entries.length = s.setting .cueLow then
    s.raise .cueLow (byteOf s.cue.entries.length :: fieldOptional 4 (s.cue.orderRef.map fieldTime))
  else s

/-- The empty test after an application: the underrun (R188). That it is an event of its own, with its own
examination of a WAITING head of the strike queue, is the model's choice (log 31). -/
def underrunTest (s : State) : State :=
  if s.cue.entries = [] ∧ s.cue.phraseOpen ∧ 0 < countOwned .cue s then
    let ended := settling none (withdrawSource .cue) s
    (ended.setCue { ended.cue with phraseOpen := false }).raise .phraseAbort
      [byteOf (countOwned .cue s)]
  else s

/-- The head applied: it leaves the queue, and the two tests are made (R184). The application and an underrun it
brings are two events for R132 (log 31). -/
def applyHead (e : CueEntry) (rest : List CueEntry) (s : State) : State :=
  underrunTest (lowWaterTest (applyEntry e (s.setCue { s.cue with entries := rest })))

/-- The head examined, and each next head at once, until one is not due (R184). The number bounds the
applications. -/
def serviceLoop : Nat → State → State
  | 0, s => s
  | n + 1, s =>
    match s.cue.entries with
    | [] => s
    | e :: rest => if cueReached s e then serviceLoop n (applyHead e rest s) else s

/-- The head of the cue queue examined (R184). -/
def serviceCue (s : State) : State := serviceLoop s.cue.entries.length s

end Sys2Proof.Machine
end

