-- ==== Sys2Proof/Machine/Cue.lean ====
section
/-! DEFINITION. The commands of the cue player: CUE_ENTRY_DUE, CUE_PUSH, CUE_FLUSH, CUE_QUERY
(10_source_contexts R182 to R189). -/

namespace Sys2Proof.Machine

/-- CUE_ENTRY_DUE (R184). -/
def execCueEntryDue (t : Time) (s : State) : Host.Outcome State Fault Refusal :=
  .next (serviceCue (s.arrive t))

/-! ### CUE_PUSH (R183) -/

/-- The 16-bit word at the start of an entry (11, after the request code table). -/
def entryWord (e : List Byte) : Nat := arg16 e 0

/-- The level of an ON entry: FOLLOW by bit 13, else bits 9..0. -/
def entryLevel (w : Nat) : CueLevel := if w / 8192 % 2 = 1 then .follow else .given (w % 1024)

/-- An entry of a CUE_PUSH frame, or none when a field lies outside its range (R183). -/
def parseEntry (cueId : Byte) (e : List Byte) : Option CueEntry :=
  let w := entryWord e
  let number := argByte e 2
  let time := argTime e 3
  match w / 16384 with
  | 0 => (keyOfNumber number).map fun k => .on k cueId (entryLevel w) time
  | 1 => if number = 0 then some (.off none cueId time)
         else (keyOfNumber number).map fun k => .off (some k) cueId time
  | 2 => (pedalOfNumber number).map fun p => .pedal p (w % 1024) time
  | _ => some (.endPhrase time)

/-- Whether a time is earlier than the order reference (R183). -/
def earlierThan (t : Time) : Option Time → Bool
  | none => false
  | some r => decide (clockDiff t r < 0)

/-- What a push leaves: the cue player, the result, and how many entries were accepted. -/
structure PushOutcome where
  /-- The cue player. -/
  cue : CuePlayer
  /-- The result. -/
  result : Result
  /-- How many entries were accepted. -/
  accepted : Nat
  deriving DecidableEq, Repr

/-- Entries tested in turn and appended, until one stops the push (R183). -/
def pushEntries (cueId : Byte) : List (List Byte) → Nat → CuePlayer → PushOutcome
  | [], n, c => { cue := c, result := .ok, accepted := n }
  | e :: es, n, c =>
    match parseEntry cueId e with
    | none => { cue := c, result := .badArgument, accepted := n }
    | some entry =>
      if earlierThan entry.time c.orderRef then { cue := c, result := .order, accepted := n }
      else if 256 ≤ c.entries.length then { cue := c, result := .full, accepted := n }
      else
        pushEntries cueId es (n + 1)
          { c with entries := c.entries ++ [entry], orderRef := some entry.time }

/-- The entries of a CUE_PUSH frame, 7 bytes each. -/
def frameEntries (arguments : List Byte) : List (List Byte) :=
  (List.range ((arguments.length - 1) / 7)).map fun i => (arguments.drop (1 + 7 * i)).take 7

/-- CUE_PUSH (R183). An entry that joined an empty queue is examined after the push (R184, log 14). -/
def actCuePush (arguments : List Byte) (s : State) : Answer :=
  let o := pushEntries (arguments.getD 0 0) (frameEntries arguments) 0 s.cue
  let pushed := s.setCue o.cue
  { state := if s.cue.entries = [] then serviceCue pushed else pushed
    result := o.result
    data := byteOf o.accepted :: field16 o.cue.entries.length }

/-- CUE_PUSH (R183), code 26. -/
def execCuePush (t : Time) (s : State) : Host.Outcome State Fault Refusal :=
  .next (serveRequest 0x26 false actCuePush (s.arrive t))

/-! ### CUE_FLUSH and CUE_QUERY (R189) -/

/-- The cue player flushed (R189). -/
def flushCue (c : CuePlayer) : CuePlayer := { c with entries := [], orderRef := none, phraseOpen := false }

/-- CUE_FLUSH (R189). -/
def actCueFlush (_arguments : List Byte) (s : State) : Answer :=
  answerOk (s.setCue (flushCue s.cue)) (field16 s.cue.entries.length)

/-- CUE_FLUSH (R189), code 27. -/
def execCueFlush (t : Time) (s : State) : Host.Outcome State Fault Refusal :=
  .next (serveRequest 0x27 false actCueFlush (s.arrive t))

/-- The data of a CUE_QUERY (R189). Phrase open is sent as 0 when clear and 1 when set (log 13). -/
def cueData (c : CuePlayer) : List Byte :=
  field16 c.entries.length ++ fieldBool c.phraseOpen
    ++ fieldOptional 4 (c.entries.head?.map fun e => fieldTime e.time)
    ++ fieldOptional 4 (c.orderRef.map fieldTime) ++ field16 c.dropped

/-- CUE_QUERY (R189). -/
def actCueQuery (_arguments : List Byte) (s : State) : Answer := answerOk s (cueData s.cue)

/-- CUE_QUERY (R189), code 28. -/
def execCueQuery (t : Time) (s : State) : Host.Outcome State Fault Refusal :=
  .next (serveRequest 0x28 false actCueQuery (s.arrive t))

end Sys2Proof.Machine
end

