-- ==== Sys2Proof/Machine/Expression.lean ====
section
/-! DEFINITION. The commands of the expression unit: EXPRESSION_STEP, EXPR_SET, EXPR_QUERY (04_expression
R64, R65, R76, R77). -/

namespace Sys2Proof.Machine

/-! ### EXPRESSION_STEP (R64, R65) -/

/-- One expression step of both contexts (R65). -/
def rampBoth (s : State) : State :=
  let ramp := rampContext (s.setting .slowRate) (s.setting .fastRate)
  { s with expression := { s.expression with
      bass := ramp s.expression.bass
      treble := ramp s.expression.treble } }

/-- An expression step when it is due: 1000 us later comes the next (R64). -/
def stepExpression (s : State) : State :=
  match s.expression.nextStep with
  | some due =>
    if reached s.clock due then
      rampBoth { s with expression := { s.expression with nextStep := some (timePlus due 1000) } }
    else s
  | none => s

/-- EXPRESSION_STEP (R64). -/
def execExpressionStep (t : Time) (s : State) : Host.Outcome State Fault Refusal :=
  .next (stepExpression (s.arrive t))

/-! ### EXPR_SET (R76) -/

/-- A context with a mode and its value set, or none when the mode or the value is out of range (R76).
ROLL is 0, FIXED 1, OFFSET 2. -/
def setMode (mode : Nat) (value : Int) (c : HalfContext) : Option HalfContext :=
  match mode with
  | 0 => some { c with mode := .roll }
  | 1 =>
    if 0 ≤ value ∧ value ≤ 1023 then some { c with mode := .fixed, fixedLevel := value.toNat } else none
  | 2 => if -1023 ≤ value ∧ value ≤ 1023 then some { c with mode := .offset, offset := value } else none
  | _ => none

/-- EXPR_SET (R76). -/
def actExprSet (arguments : List Byte) (s : State) : Answer :=
  match halfOfNumber (argByte arguments 0) with
  | none => refuse s .badArgument
  | some h =>
    match setMode (argByte arguments 1) (signedValue 16 (arg16 arguments 2)) (s.half h) with
    | none => refuse s .badArgument
    | some c => answerOk (s.setHalf h c) []

/-- EXPR_SET (R76), code 10. -/
def execExprSet (t : Time) (s : State) : Host.Outcome State Fault Refusal :=
  .next (serveRequest 0x10 false actExprSet (s.arrive t))

/-! ### EXPR_QUERY (R77) -/

/-- The number of a mode in a frame. -/
def modeNumber : ExprMode → Nat
  | .roll => 0
  | .fixed => 1
  | .offset => 2

/-- The number of a crescendo state in a frame. -/
def crescendoNumber : Crescendo → Nat
  | .none => 0
  | .slow => 1
  | .fast => 2
  | .both => 3

/-- A chord latch in a frame: the start line and the latched level. -/
def fieldLatch (l : ChordLatch) : List Byte := fieldLine l.start ++ field16 l.level

/-- The data of an EXPR_QUERY (R77). Sforzando active and accent active are sent as 0 when clear and 1 when set
(log 13). -/
def expressionData (c : HalfContext) (output : Nat) : List Byte :=
  [byteOf (modeNumber c.mode)] ++ field16 c.fixedLevel ++ field16Int c.offset
    ++ field16 c.base ++ field16 c.effective ++ [byteOf (crescendoNumber c.crescendo)]
    ++ fieldBool c.sforzando ++ fieldBool c.accent ++ fieldOptional 4 (c.latch.map fieldLatch)
    ++ field16 output

/-- EXPR_QUERY (R77). -/
def actExprQuery (arguments : List Byte) (s : State) : Answer :=
  match halfOfNumber (argByte arguments 0) with
  | some h => answerOk s (expressionData (s.half h) (s.output h))
  | none => refuse s .badArgument

/-- EXPR_QUERY (R77), code 11. -/
def execExprQuery (t : Time) (s : State) : Host.Outcome State Fault Refusal :=
  .next (serveRequest 0x11 false actExprQuery (s.arrive t))

end Sys2Proof.Machine
end

