-- ==== Sys2Proof/Machine/HubOps.lean ====
section
/-! DEFINITION. The hammer port: bursts, reports, measurement and learning (08_hammer_sensing). -/

namespace Sys2Proof.Machine

/-- The state with another hammer port. -/
def State.setHub (s : State) (h : HammerPort) : State := { s with hub := h }

/-- HUB_DISCARDED counts one more (R150). -/
def countHubDiscarded (s : State) : State := s.setHub { s.hub with discarded := bump s.hub.discarded }

/-- HAMMERS_IMPLAUSIBLE counts one more (R146). -/
def countImplausible (s : State) : State := s.setHub { s.hub with implausible := bump s.hub.implausible }

/-- UNEXPECTED_HAMMERS counts one more (R147). -/
def countUnexpected (s : State) : State := s.setHub { s.hub with unexpected := bump s.hub.unexpected }

/-! ### Learning (R154 to R157) -/

/-- The increment of the breakpoint at the weight `w` of an error times a gain (R155, R157). -/
def learnIncrement (error : Int) (gain w : Nat) : Int := (error * gain * w + 2048) / 4096

/-- Two neighbouring breakpoints corrected with the weights 256 - f and f, clamped to 0..hi (R155, R157). -/
def correctCurve (hi : Nat) (error : Int) (gain : Nat) (i : Fin 7) (f : Nat) (curve : Vector Nat 8) :
    Vector Nat 8 :=
  let low := clampNat hi ((curve[i.castSucc] : Int) + learnIncrement error gain (256 - f))
  let high := clampNat hi ((curve[i.succ] : Int) + learnIncrement error gain f)
  (curve.set i.castSucc low).set i.succ high

/-- The pass upward that restores an order: for j from 1 to 7, breakpoint j becomes `keep` of itself and
breakpoint j - 1 (R155, R157). -/
def restoreOrder (keep : Nat → Nat → Nat) (curve : Vector Nat 8) : Vector Nat 8 :=
  (List.finRange 7).foldl (fun v j => v.set j.succ (keep v[j.succ] v[j.castSucc])) curve

/-- The duty breakpoints corrected for a velocity error (R155). -/
def learnDuty (error : Int) (gain : Nat) (v : StrikeValues) (r : VoicingRecord) : VoicingRecord :=
  { r with duties := restoreOrder max (correctCurve 1023 error gain v.interval v.fraction r.duties) }

/-- The soft trim corrected for a velocity error (R156). -/
def learnTrim (error : Int) (gain : Nat) (r : VoicingRecord) : VoicingRecord :=
  { r with softTrim := clampInt (-255) 255 (r.softTrim + (error * gain + 8) / 16) }

/-- The flight breakpoints corrected for a flight error (R157). -/
def learnFlight (error : Int) (gain : Nat) (v : StrikeValues) (r : VoicingRecord) : VoicingRecord :=
  { r with flights := restoreOrder min (correctCurve 4000 error gain v.interval v.fraction r.flights) }

/-- The duty or the trim corrected by the note's computed shift, or neither (R155, R156). -/
def learnDrive (error : Int) (gain : Nat) (v : StrikeValues) (r : VoicingRecord) : VoicingRecord :=
  if v.shift < 64 then learnDuty error gain v r
  else if 960 ≤ v.shift then learnTrim error gain r
  else r

/-- A whole learning update from the measured velocity and flight (R154 to R157). -/
def learnRecord (s : State) (measuredVelocity : Nat) (measuredFlight : Int) (v : StrikeValues)
    (r : VoicingRecord) : VoicingRecord :=
  learnFlight (measuredFlight - v.flight) (s.setting .learnGainFlight) v
    (learnDrive ((v.velocity : Int) - measuredVelocity) (s.setting .learnGainDuty) v r)

/-- Whether a report that ends a strike is learned from (R154). -/
def learningApplies (s : State) (k : Key) (l : Launch) : Bool :=
  decide (s.setting .learn = 1) && !(s.key k).flags.learnExclude && decide (l.mode = .normal)
    && s.loader.commit.isNone

/-- The state with a key's voicing record replaced. -/
def State.setVoice (s : State) (k : Key) (r : VoicingRecord) : State :=
  { s with voicing := s.voicing.set k r }

/-- Learning applied from a report that ends a strike (R154). -/
def applyLearning (k : Key) (v : StrikeValues) (l : Launch) (measuredVelocity : Nat) (measuredFlight : Int)
    (s : State) : State :=
  if learningApplies s k l then
    s.setVoice k (learnRecord s measuredVelocity measuredFlight v (s.voice k))
  else s

/-! ### Hammer reports (R146 to R149) -/

/-- The measured velocity of a gate interval (R148). -/
def measuredVelocity (gateDist dt : Nat) : Nat := max 1 (min 1023 (gateDist * 10000 / dt))

/-- The measured flight of a report time (R148). -/
def measuredFlight (reportTime : Time) (l : Launch) : Int := clockDiff reportTime l.actual / 100

/-- A valid hammer report taken for its key (R147 to R149): unexpected, or the end of a sensed strike, or a
report that cannot belong to it. -/
def takeHammer (k : Key) (dt : Nat) (reportTime : Time) (s : State) : State :=
  match (s.key k).phase with
  | .strike _ v l true _ _ =>
    if clockDiff reportTime l.actual < 0 then retireKey k .fault s
    else
      let velocity := measuredVelocity (s.setting .gateDist) dt
      let learned := applyLearning k v l velocity (measuredFlight reportTime l) s
      endStrike k (learned.setKey k { learned.key k with missCount := 0, lastVelocity := some velocity })
  | _ => countUnexpected s

/-- A hammer report tested for plausibility and taken (R146). -/
def hammerReport (k : Key) (dt : Nat) (s : State) : State :=
  if 250 ≤ dt ∧ dt ≤ 50000 then
    settling none (takeHammer k dt (timePlus s.clock (-(s.setting .hubLatency : Int)))) s
  else countImplausible s

/-! ### Pedal reports and routing (R145, R164) -/

/-- A pedal report at the servo (R164). -/
def pedalReport (p : Pedal) (position : Nat) (s : State) : State :=
  s.setPedal p { s.pedal p with position := position, lastReport := some s.clock }

/-- A report of a pedal whose position is tested (R145). -/
def checkedPedalReport (p : Pedal) (position : Nat) (s : State) : State :=
  if 1023 < position then countHubDiscarded s else pedalReport p position s

/-- A report's four bytes checked and routed (R145). -/
def takeReport (b0 b1 b2 b3 : Byte) (s : State) : State :=
  if b3 ≠ b0 ^^^ b1 ^^^ b2 then countHubDiscarded s
  else
    match keyOfNumber b0.toNat with
    | some k => hammerReport k (valueOf [b1, b2]) s
    | none =>
      if b0 = 0xF1 then checkedPedalReport .sustain (valueOf [b1, b2]) s
      else if b0 = 0xF2 then checkedPedalReport .shift (valueOf [b1, b2]) s
      else countHubDiscarded s

/-! ### Bursts (R144) -/

/-- A byte received on the hammer line (R144): it begins a burst, adds to one, completes a report as the
fourth, or comes after it. Until the image load completes the burst is ignored. -/
def receiveByte (b : Byte) (s : State) : State :=
  if !s.loader.ready then s.setHub { s.hub with ignoring := true }
  else if s.hub.ignoring then s
  else
    match s.hub.burst with
    | [] => s.setHub { s.hub with burst := [b] }
    | [b0] => s.setHub { s.hub with burst := [b0, b] }
    | [b0, b1] => s.setHub { s.hub with burst := [b0, b1, b] }
    | [b0, b1, b2] =>
      takeReport b0 b1 b2 b (s.setHub { s.hub with burst := [b0, b1, b2, b], overrun := true })
    | _ => s.setHub { s.hub with extra := true }

/-- The hammer line has fallen idle: the burst ends, and a short or an overrun one is counted (R144). -/
def endBurst (s : State) : State :=
  let ended := s.setHub { s.hub with burst := [], overrun := false, extra := false, ignoring := false }
  if s.hub.ignoring || s.hub.burst.isEmpty then ended
  else if s.hub.burst.length < 4 || s.hub.extra then countHubDiscarded ended
  else ended

end Sys2Proof.Machine
end

