-- ==== Sys2Proof/Machine/Hammer.lean ====
section
/-! DEFINITION. The commands of the hammer line: HUB_BYTE_RECEIVED, HUB_REPORT, HUB_BURST_END
(08_hammer_sensing R144 to R150). -/

namespace Sys2Proof.Machine

/-- HUB_BYTE_RECEIVED (R144). A byte that comes fourth completes a report here too. -/
def execHubByteReceived (t : Time) (byte : Byte) (s : State) : Host.Outcome State Fault Refusal :=
  .next (receiveByte byte (s.arrive t))

/-- The fourth byte of a burst; with any other number of bytes received no report is completed (log 2). -/
def completeReport (byte : Byte) (s : State) : State :=
  if s.hub.burst.length = 3 then receiveByte byte s else s

/-- HUB_REPORT (R144). -/
def execHubReport (t : Time) (byte : Byte) (s : State) : Host.Outcome State Fault Refusal :=
  .next (completeReport byte (s.arrive t))

/-- HUB_BURST_END (R144). -/
def execHubBurstEnd (t : Time) (s : State) : Host.Outcome State Fault Refusal :=
  .next (endBurst (s.arrive t))

end Sys2Proof.Machine
end

