-- ==== Sys2Proof/Machine/Heat.lean ====
section
/-! DEFINITION. HEAT_STEP: the heat monitor's step (07_drive_power R137 to R143). -/

namespace Sys2Proof.Machine

/-- A heat figure after a step at a drive level (R138). -/
def heatedFigure (h d : Nat) : Nat := min 262143 (h + d - h / 256)

/-- The state with a key's heat figure replaced. -/
def State.setHeat (s : State) (k : Key) (h : Nat) : State :=
  { s with heat := { s.heat with figures := s.heat.figures.set k h } }

/-- The cut of R140, or the hold duty in use of R139, of a key whose figure has been updated. -/
def guardHold (k : Key) (s : State) : State :=
  match (s.key k).phase with
  | .hold n v l _ start =>
    if s.heat.max ≤ s.heatOf k then
      raiseThermal k 0 (some n.claimant) (s.setPhase k (.damp (gapEndNow s k)))
    else s.setPhase k (.hold n v l (holdDutyFor s k l (driveLevel s k)) start)
  | _ => s

/-- One key's part of a heat step (R138): its figure, then the cut, then its hold duty in use. -/
def heatKey (k : Key) (s : State) : State :=
  guardHold k (s.setHeat k (heatedFigure (s.heatOf k) (driveLevel s k)))

/-- Every key's part, in increasing key number (R138). -/
def heatKeys (s : State) : State := allKeys.foldl (fun t k => heatKey k t) s

/-- Whether some key's claim is smaller in the second state than in the first. -/
def claimShrank (before after : State) : Bool :=
  allKeys.any fun k => decide (driveLevel after k < driveLevel before k)

/-- Whether the head's key has reached the working HEAT_MAX (R138). -/
def headHot (s : State) : Bool :=
  match s.queue.entries with
  | e :: _ => decide (s.heat.max ≤ s.heatOf e.key)
  | [] => false

/-- The working thresholds taken from the settings (R142). -/
def loadThresholds (s : State) : State :=
  { s with heat := { s.heat with warn := s.setting .heatWarn, max := s.setting .heatMax } }

/-- The work of one heat step (R138): the keys, then the one examination of a WAITING head. -/
def heatWork (s : State) : State :=
  let before := loadThresholds s
  let after := heatKeys before
  if claimShrank before after || headHot after then reexamineHead after else after

/-- A heat step when it is due; the next comes 1000 us later (R137). -/
def stepHeat (s : State) : State :=
  match s.heat.nextStep with
  | some due =>
    if reached s.clock due then
      heatWork { s with heat := { s.heat with nextStep := some (timePlus due 1000) } }
    else s
  | none => s

/-- HEAT_STEP (R138). -/
def execHeatStep (t : Time) (s : State) : Host.Outcome State Fault Refusal :=
  .next (stepHeat (s.arrive t))

end Sys2Proof.Machine
end

