-- ==== Sys2Proof/Machine/Keys.lean ====
section
/-! DEFINITION. The requests of the key table: ALL_OFF, QUIET_SET, KEY_AMEND, KEY_QUERY, KEY_RETIRE,
KEY_RESTORE (05_the_key_table R98 to R105). -/

namespace Sys2Proof.Machine

/-! ### ALL_OFF (R101) -/

/-- Every key and both pedals silenced (R101, R174). -/
def allOff (s : State) : State := releasePedals (settling none silenceKeys s)

/-- ALL_OFF (R101). -/
def actAllOff (_arguments : List Byte) (s : State) : Answer := answerOk (allOff s) []

/-- ALL_OFF (R101), code 17. -/
def execAllOff (t : Time) (s : State) : Host.Outcome State Fault Refusal :=
  .next (serveRequest 0x17 false actAllOff (s.arrive t))

/-! ### QUIET_SET (R100) -/

/-- QUIET set, after every key has been silenced, or cleared (R100). -/
def setQuiet (on : Bool) (s : State) : State :=
  if on then { settling none silenceKeys s with quiet := true } else { s with quiet := false }

/-- QUIET_SET (R100). -/
def actQuietSet (arguments : List Byte) (s : State) : Answer :=
  match boolOfNumber (argByte arguments 0) with
  | some on => answerOk (setQuiet on s) []
  | none => refuse s .badArgument

/-- QUIET_SET (R100), code 18. -/
def execQuietSet (t : Time) (s : State) : Host.Outcome State Fault Refusal :=
  .next (serveRequest 0x18 false actQuietSet (s.arrive t))

/-! ### KEY_AMEND (R98, R99, R123) -/

/-- The level of a KEY_AMEND (R98). -/
inductive AmendLevel where
  | keep
  | given (level : Nat)
  | bad
  deriving DecidableEq, Repr

/-- The level field of a KEY_AMEND: FFFF is none. -/
def amendLevelOf (n : Nat) : AmendLevel :=
  if n = 0xFFFF then .keep else if n ≤ 1023 then .given n else .bad

/-- The state with a key's flags replaced. -/
def State.setFlags (s : State) (k : Key) (f : KeyFlags) : State := s.setKey k { s.key k with flags := f }

/-- What a newly set MUTE does to the note in play: one launched NORMAL in STRIKE and any in HOLD, one launched
COOL too, becomes MUTED (R99). -/
def muteNote (k : Key) (s : State) : State :=
  match (s.key k).phase with
  | .strike n v l sensed e m =>
    if l.mode = .normal then unsenseStrike k (s.setPhase k (.strike n v { l with mode := .muted } sensed e m))
    else s
  | .hold n v l d start => s.setPhase k (.hold n v { l with mode := .muted } d start)
  | _ => s

/-- The flags changed, with what follows from MUTE and HOLD_EXEMPT (R98, R99, R94a; log 15). -/
def amendFlags (k : Key) (setMask clearMask : Byte) (s : State) : State :=
  let changed := s.setFlags k ((s.key k).flags.amend setMask clearMask)
  timeOutIfDue k
    (if !(s.key k).flags.mute && (changed.key k).flags.mute then muteNote k changed else changed)

/-- The level of a PENDING note replaced, and the note computed and queued again (R98, R123). -/
def amendLevel (k : Key) (level : Nat) (s : State) : State :=
  match (s.key k).phase with
  | .pending n _ => enterPending k { n with level := level } (computeStrike s k { n with level := level }) s
  | _ => s

/-- A KEY_AMEND that has passed its tests. -/
def amendKey (k : Key) (setMask clearMask : Byte) : AmendLevel → State → State
  | .given level, s =>
    settling (some k) (fun u => amendLevel k level (amendFlags k setMask clearMask u)) s
  | _, s => settling none (amendFlags k setMask clearMask) s

/-- KEY_AMEND (R98): the answer carries the flags after the change. -/
def actKeyAmend (arguments : List Byte) (s : State) : Answer :=
  let setMask := arguments.getD 1 0
  let clearMask := arguments.getD 2 0
  let level := amendLevelOf (arg16 arguments 3)
  match keyOfNumber (argByte arguments 0) with
  | none => refuse s .badArgument
  | some k =>
    if !maskValid setMask || !maskValid clearMask || decide (level = .bad) then refuse s .badArgument
    else if decide (level ≠ .keep) && !isPending (s.key k).phase then refuse s .state
    else
      answerOk (amendKey k setMask clearMask level s)
        [((s.key k).flags.amend setMask clearMask).toByte]

/-- KEY_AMEND (R98), code 19. -/
def execKeyAmend (t : Time) (s : State) : Host.Outcome State Fault Refusal :=
  .next (serveRequest 0x19 false actKeyAmend (s.arrive t))

/-! ### KEY_QUERY (R105) -/

/-- The note in play of a phase. -/
def noteOf : KeyPhase → Option Note
  | .pending n _ => some n
  | .strike n _ _ _ _ _ => some n
  | .hold n _ _ _ _ => some n
  | _ => none

/-- The strike values of the note in play. -/
def valuesOf : KeyPhase → Option StrikeValues
  | .pending _ v => some v
  | .strike _ v _ _ _ _ => some v
  | .hold _ v _ _ _ => some v
  | _ => none

/-- The launch fields of the note in play. -/
def launchOf : KeyPhase → Option Launch
  | .strike _ _ l _ _ _ => some l
  | .hold _ _ l _ _ => some l
  | _ => none

/-- The successor of a phase. -/
def successorOf : KeyPhase → Option Note
  | .strike _ _ _ _ _ m => m
  | .waiting m _ => some m
  | _ => none

/-- The sensed marking of a strike in progress. -/
def sensedOf : KeyPhase → Option Bool
  | .strike _ _ _ sensed _ _ => some sensed
  | _ => none

/-- The hold duty in use and the hold start of a key in HOLD. -/
def holdOf : KeyPhase → Option (Nat × Time)
  | .hold _ _ _ duty start => some (duty, start)
  | _ => none

/-- The gap end of a key in DAMP or REPEAT. -/
def gapEndOf : KeyPhase → Option Time
  | .damp g => some g
  | .waiting _ g => some g
  | _ => none

/-- The retire reason of a RETIRED key. -/
def reasonOf : KeyPhase → Option RetireReason
  | .retired r => some r
  | _ => none

/-- The number of a launch mode in a frame. -/
def launchNumber : LaunchMode → Nat
  | .normal => 0
  | .muted => 1
  | .cool => 2

/-- A note record in a frame, its fields in the order R78 names them: the strike values and the launch
fields are optional fields (log 13). -/
def noteBytes (n : Note) (v : Option StrikeValues) (l : Option Launch) : List Byte :=
  fieldOwner (some n.claimant) ++ fieldTime n.sound ++ field16 n.level
    ++ fieldOptional 2 (v.map fun x => field16 x.velocity)
    ++ fieldOptional 1 (v.map fun x => [byteOf x.interval.val])
    ++ fieldOptional 2 (v.map fun x => field16 x.fraction)
    ++ fieldOptional 2 (v.map fun x => field16 x.duty)
    ++ fieldOptional 2 (v.map fun x => field16 x.flight)
    ++ fieldOptional 4 (v.map fun x => fieldTime x.planned)
    ++ fieldOptional 2 (v.map fun x => field16 x.shift)
    ++ fieldOptional 4 (n.release.map fieldTime)
    ++ fieldOptional 4 (l.map fun x => fieldTime x.actual)
    ++ fieldOptional 4 (l.map fun x => fieldTime x.limit)
    ++ fieldOptional 1 (l.map fun x => [byteOf (launchNumber x.mode)])
    ++ fieldOptional 4 (l.map fun x => field32Int x.lateness)

/-- The number of bytes `noteBytes` gives. -/
def noteWidth : Nat := 52

/-- The data of a KEY_QUERY (R105). The sensed marking and QUIET are sent as 0 when clear and 1 when set (log 13). -/
def keyData (s : State) (k : Key) : List Byte :=
  let r := s.key k
  [byteOf (phaseNumber r.phase)] ++ fieldOwner (s.owner k)
    ++ fieldOptional noteWidth ((noteOf r.phase).map fun n => noteBytes n (valuesOf r.phase) (launchOf r.phase))
    ++ fieldOptional noteWidth ((successorOf r.phase).map fun m => noteBytes m none none)
    ++ fieldOptional 1 ((sensedOf r.phase).map fieldBool)
    ++ [r.flags.toByte] ++ field16 (driveLevel s k)
    ++ fieldOptional 2 ((holdOf r.phase).map fun h => field16 h.1)
    ++ fieldOptional 4 ((holdOf r.phase).map fun h => fieldTime h.2)
    ++ fieldOptional 4 ((gapEndOf r.phase).map fieldTime)
    ++ [byteOf r.missCount]
    ++ fieldOptional 1 ((reasonOf r.phase).map fun x => [byteOf (reasonNumber x)])
    ++ fieldOptional 2 (r.lastVelocity.map field16)
    ++ field32Int r.lastLateness ++ field32 (s.heatOf k) ++ fieldBool s.quiet

/-- KEY_QUERY (R105). -/
def actKeyQuery (arguments : List Byte) (s : State) : Answer :=
  match keyOfNumber (argByte arguments 0) with
  | some k => answerOk s (keyData s k)
  | none => refuse s .badArgument

/-- KEY_QUERY (R105), code 1A. -/
def execKeyQuery (t : Time) (s : State) : Host.Outcome State Fault Refusal :=
  .next (serveRequest 0x1A false actKeyQuery (s.arrive t))

/-! ### KEY_RETIRE and KEY_RESTORE (R102, R103) -/

/-- KEY_RETIRE (R102). -/
def actKeyRetire (arguments : List Byte) (s : State) : Answer :=
  match keyOfNumber (argByte arguments 0) with
  | none => refuse s .badArgument
  | some k =>
    if isRetired (s.key k).phase then refuse s .state
    else answerOk (settling none (retireKey k .host) s) []

/-- KEY_RETIRE (R102), code 1C. -/
def execKeyRetire (t : Time) (s : State) : Host.Outcome State Fault Refusal :=
  .next (serveRequest 0x1C false actKeyRetire (s.arrive t))

/-- A RETIRED key returned to IDLE (R103). -/
def restoreKey (k : Key) (s : State) : State :=
  s.setKey k { s.key k with phase := .idle, missCount := 0 }

/-- KEY_RESTORE (R103). -/
def actKeyRestore (arguments : List Byte) (s : State) : Answer :=
  match keyOfNumber (argByte arguments 0) with
  | none => refuse s .badArgument
  | some k => if isRetired (s.key k).phase then answerOk (restoreKey k s) [] else refuse s .state

/-- KEY_RESTORE (R103), code 1D. -/
def execKeyRestore (t : Time) (s : State) : Host.Outcome State Fault Refusal :=
  .next (serveRequest 0x1D false actKeyRestore (s.arrive t))

end Sys2Proof.Machine
end

