-- ==== Sys2Proof/Machine/Pedals.lean ====
section
/-! DEFINITION. The commands of the pedal servo: PEDAL_STEP, PEDAL_FAULT, PEDAL_EVENT_DUE, PEDAL_SET,
PEDAL_YIELD, PEDAL_QUERY, PEDAL_CLEAR_FAULT (09_pedals). -/

namespace Sys2Proof.Machine

/-! ### PEDAL_STEP (R168, R169) -/

/-- The work of one servo step: SUSTAIN, then SHIFT, then the one examination of a WAITING head when a
drive has been lowered (R168, R132; log 18). -/
def servoWork (s : State) : State :=
  let after := stepPedal .shift (stepPedal .sustain s)
  if after.pedals.sustain.drive < s.pedals.sustain.drive ∨ after.pedals.shift.drive < s.pedals.shift.drive then
    reexamineHead after
  else after

/-- A servo step when it is due; the next comes 1000 us later (R168). -/
def stepServo (s : State) : State :=
  match s.pedals.nextStep with
  | some due =>
    if reached s.clock due then
      servoWork { s with pedals := { s.pedals with nextStep := some (timePlus due 1000) } }
    else s
  | none => s

/-- PEDAL_STEP (R168). -/
def execPedalStep (t : Time) (s : State) : Host.Outcome State Fault Refusal :=
  .next (stepServo (s.arrive t))

/-! ### PEDAL_FAULT (R170) -/

/-- Whether a servo step is due. -/
def servoDue (s : State) : Bool :=
  match s.pedals.nextStep with
  | some due => reached s.clock due
  | none => false

/-- A pedal that its due step would send to FAULT enters FAULT (R170): it is classed MOVING, was MOVING
before, and its spell of MOVING has lasted longer than PEDAL_SETTLE. -/
def settleTimeout (p : Pedal) (s : State) : State :=
  match (s.pedal p).mode with
  | .moving start =>
    if servoDue s && !withinDeadband s (s.pedal p) && settleExceeded s start then
      reexamineHead (faultPedal p start s)
    else s
  | _ => s

/-- PEDAL_FAULT (R170). -/
def execPedalFault (t : Time) (pedal : Pedal) (s : State) : Host.Outcome State Fault Refusal :=
  .next (settleTimeout pedal (s.arrive t))

/-! ### PEDAL_EVENT_DUE (R167) -/

/-- PEDAL_EVENT_DUE (R167). -/
def execPedalEventDue (t : Time) (pedal : Pedal) (s : State) : Host.Outcome State Fault Refusal :=
  .next (applyDueEvents pedal (s.arrive t))

/-! ### PEDAL_SET (R171) -/

/-- PEDAL_SET (R171). -/
def actPedalSet (arguments : List Byte) (s : State) : Answer :=
  match pedalOfNumber (argByte arguments 0) with
  | none => refuse s .badArgument
  | some p =>
    if 1023 < arg16 arguments 1 then refuse s .badArgument
    else
      let answer := cuePedal p (arg16 arguments 1) s
      { state := answer.1, result := answer.2, data := [] }

/-- PEDAL_SET (R171), code 20. -/
def execPedalSet (t : Time) (s : State) : Host.Outcome State Fault Refusal :=
  .next (serveRequest 0x20 false actPedalSet (s.arrive t))

/-! ### PEDAL_YIELD (R173) -/

/-- The PEDAL channel of a pedal (R163). -/
def pedalChannel : Pedal → Channel
  | .sustain => 6
  | .shift => 101

/-- The target that the PEDAL aperture of a pedal's side gives (R173). -/
def yieldTarget (p : Pedal) (s : State) : Nat :=
  match (s.apertures.records[pedalChannel p]).life with
  | .opened _ _ _ => s.setting .pedalEngagePos
  | .bridging _ _ _ _ _ _ => s.setting .pedalEngagePos
  | _ => 0

/-- A pedal returned to the roll (R173). -/
def yieldPedal (p : Pedal) (s : State) : State :=
  s.setPedal p { s.pedal p with owner := .roll, events := [], target := yieldTarget p s }

/-- PEDAL_YIELD (R173). A pedal that ROLL owns already is answered with no data (log 19). -/
def actPedalYield (arguments : List Byte) (s : State) : Answer :=
  match pedalOfNumber (argByte arguments 0) with
  | none => refuse s .badArgument
  | some p =>
    if (s.pedal p).mode = .fault then refuse s .state
    else
      match (s.pedal p).owner with
      | .roll => answerOk s []
      | .cue => answerOk (yieldPedal p s) (field16 (yieldTarget p s))

/-- PEDAL_YIELD (R173), code 21. -/
def execPedalYield (t : Time) (s : State) : Host.Outcome State Fault Refusal :=
  .next (serveRequest 0x21 false actPedalYield (s.arrive t))

/-! ### PEDAL_QUERY (R175) -/

/-- The number of a pedal state in a frame. -/
def pedalModeNumber : PedalMode → Nat
  | .idle => 0
  | .moving _ => 1
  | .holding => 2
  | .fault => 3

/-- The move start, present in MOVING. -/
def moveStartOf : PedalMode → Option Time
  | .moving start => some start
  | _ => none

/-- The data of a PEDAL_QUERY (R175). -/
def pedalData (p : Pedal) (r : PedalRecord) : List Byte :=
  [byteOf (pedalModeNumber r.mode)] ++ fieldPedalOwner p r.owner ++ field16 r.target ++ field16 r.position
    ++ fieldOptional 4 (r.lastReport.map fieldTime) ++ field16 r.drive
    ++ fieldOptional 4 ((moveStartOf r.mode).map fieldTime)
    ++ fieldList (r.events.map fun e => fieldTime e.time ++ field16 e.target)

/-- PEDAL_QUERY (R175). -/
def actPedalQuery (arguments : List Byte) (s : State) : Answer :=
  match pedalOfNumber (argByte arguments 0) with
  | some p => answerOk s (pedalData p (s.pedal p))
  | none => refuse s .badArgument

/-- PEDAL_QUERY (R175), code 22. -/
def execPedalQuery (t : Time) (s : State) : Host.Outcome State Fault Refusal :=
  .next (serveRequest 0x22 false actPedalQuery (s.arrive t))

/-! ### PEDAL_CLEAR_FAULT (R176) -/

/-- A pedal returned from FAULT to IDLE (R176). -/
def clearFault (p : Pedal) (s : State) : State :=
  s.setPedal p { s.pedal p with mode := .idle, target := 0, drive := 0, events := [] }

/-- PEDAL_CLEAR_FAULT (R176). -/
def actPedalClearFault (arguments : List Byte) (s : State) : Answer :=
  match pedalOfNumber (argByte arguments 0) with
  | none => refuse s .badArgument
  | some p => if (s.pedal p).mode = .fault then answerOk (clearFault p s) [] else refuse s .state

/-- PEDAL_CLEAR_FAULT (R176), code 23. -/
def execPedalClearFault (t : Time) (s : State) : Host.Outcome State Fault Refusal :=
  .next (serveRequest 0x23 false actPedalClearFault (s.arrive t))

end Sys2Proof.Machine
end

