-- ==== Sys2Proof/Machine/Play.lean ====
section
/-! DEFINITION. The host play requests: PLAY_OPEN, PLAY_CLOSE, PLAY_CANCEL
(05_the_key_table R95 to R97). -/

namespace Sys2Proof.Machine

/-- A key named in a CUE request, transposed and folded by the CUE context (05 "Host play requests"). -/
def cueKey (s : State) (number : Nat) : Key := transposedKey s.contexts.cue number

/-! ### PLAY_OPEN (R95) -/

/-- What the level of a play request is formed from (R86). -/
def playLevel : CueLevel → LevelFrom
  | .given n => .given n
  | .follow => .follow

/-- The claim of a PLAY_OPEN and its answer (R95). -/
def openNote (k : Key) (cueId : Byte) (level : CueLevel) (sound : Time) (s : State) : Answer :=
  let answer := claim { key := k, claimant := cueOwner cueId, sound := sound, level := playLevel level } s
  match answer.2 with
  | .taken n => answerOk answer.1 [byteOf (keyNumber k), byteOf n]
  | .owned => refuse s .owned
  | .retired => refuse s .retired
  | .disabled => refuse s .notPermitted

/-- PLAY_OPEN (R95). -/
def actPlayOpen (arguments : List Byte) (s : State) : Answer :=
  match keyOfNumber (argByte arguments 0), cueLevelOf (arg16 arguments 2) with
  | some key, some level =>
    if !s.contexts.cue.enabled then refuse s .notPermitted
    else if !inKeyRange s.contexts.cue (cueKey s (keyNumber key)) then refuse s .badArgument
    else openNote (cueKey s (keyNumber key)) (arguments.getD 1 0) level (argTime arguments 4) s
  | _, _ => refuse s .badArgument

/-- PLAY_OPEN (R95), code 14. -/
def execPlayOpen (t : Time) (s : State) : Host.Outcome State Fault Refusal :=
  .next (serveRequest 0x14 false actPlayOpen (s.arrive t))

/-! ### PLAY_CLOSE (R96) -/

/-- The release time of a PLAY_CLOSE: time mode 0 gives it, 1 is NOW (R96). -/
def closeTimeOf (now given : Time) : Nat → Option Time
  | 0 => some given
  | 1 => some now
  | _ => none

/-- A close of one key (R96). -/
def closeOne (o : Owner) (release : Time) (k : Key) (s : State) : Answer :=
  if s.owner k = some o then answerOk (settling none (closeKey o release k) s) [] else refuse s .notOwner

/-- A close of every key of an owner (R96): the answer counts them. -/
def closeEvery (o : Owner) (release : Time) (s : State) : Answer :=
  answerOk (settling none (closeAll o release) s) [byteOf (keysOf o s).length]

/-- PLAY_CLOSE (R96). A key of 0 is ALL. -/
def actPlayClose (arguments : List Byte) (s : State) : Answer :=
  match closeTimeOf s.clock (argTime arguments 3) (argByte arguments 2) with
  | none => refuse s .badArgument
  | some release =>
    if argByte arguments 1 = 0 then closeEvery (cueOwner (arguments.getD 0 0)) release s
    else
      match keyOfNumber (argByte arguments 1) with
      | none => refuse s .badArgument
      | some key => closeOne (cueOwner (arguments.getD 0 0)) release (cueKey s (keyNumber key)) s

/-- PLAY_CLOSE (R96), code 15. -/
def execPlayClose (t : Time) (s : State) : Host.Outcome State Fault Refusal :=
  .next (serveRequest 0x15 false actPlayClose (s.arrive t))

/-! ### PLAY_CANCEL (R97) -/

/-- A note withdrawn by a cancel (R97): a PENDING note leaves the strike queue. -/
def cancelNote (k : Key) (s : State) : State :=
  dequeue k (s.setPhase k (withdrawnPhase s.clock (gapEndNow s k) (s.key k).phase))

/-- PLAY_CANCEL (R97): the answer carries the state the key held before. -/
def actPlayCancel (arguments : List Byte) (s : State) : Answer :=
  match keyOfNumber (argByte arguments 1) with
  | none => refuse s .badArgument
  | some key =>
    let k := cueKey s (keyNumber key)
    if s.owner k = some (cueOwner (arguments.getD 0 0)) then
      answerOk (settling none (cancelNote k) s) [byteOf (phaseNumber (s.key k).phase)]
    else refuse s .notOwner

/-- PLAY_CANCEL (R97), code 16. -/
def execPlayCancel (t : Time) (s : State) : Host.Outcome State Fault Refusal :=
  .next (serveRequest 0x16 false actPlayCancel (s.arrive t))

end Sys2Proof.Machine
end

