-- ==== Sys2Proof/Machine/TrackerOps.lean ====
section
/-! DEFINITION. The roll tracker: edges, centre and width, channel geometry, lock, loss, the end of the
roll and the roll withdrawal (02_roll_tracking). -/

namespace Sys2Proof.Machine

/-! ### Pixels and edges (R19, R20) -/

/-- Pixel p of a line, for p in 0..2047: lane p / 512 carries it (01_scan_link). True is light. -/
def pixelAt (lanes : Vector LanePixels 4) (p : Nat) : Bool :=
  (lanes.toList.getD (p / 512) 0).getMsbD (p % 512)

/-- The pixels of a line in order. -/
def linePixels (lanes : Vector LanePixels 4) : List Bool :=
  lanes.toList.flatMap fun lane => (List.range 512).map fun i => lane.getMsbD i

/-- The index of the first pixel of the first dark run of at least `need` pixels. `i` is the index of the
list's first pixel and `run` the length of the dark run that ends just before it. -/
def firstLongRun (need : Nat) : List Bool → Nat → Nat → Option Nat
  | [], _, _ => none
  | true :: ps, i, _ => firstLongRun need ps (i + 1) 0
  | false :: ps, i, run => if need ≤ run + 1 then some (i - run) else firstLongRun need ps (i + 1) (run + 1)

/-- The left edge (R19). -/
def leftEdge (edgeRun : Nat) (pixels : List Bool) : Option Nat := firstLongRun edgeRun pixels 0 0

/-- The right edge (R19): the left edge of the line read from its other end. -/
def rightEdge (edgeRun : Nat) (pixels : List Bool) : Option Nat :=
  (firstLongRun edgeRun pixels.reverse 0 0).map fun i => 2047 - i

/-- The lower width limit (R20). -/
def widthLow (w : WorkingGeometry) : Nat := w.nominalWidth * (100 - w.widthTol) / 100

/-- The upper width limit (R20). -/
def widthHigh (w : WorkingGeometry) : Nat := w.nominalWidth * (100 + w.widthTol) / 100

/-- The edges of a line when they are valid (R19, R20). -/
def validEdges (w : WorkingGeometry) (lanes : Vector LanePixels 4) : Option (Nat × Nat) :=
  match leftEdge w.edgeRun (linePixels lanes), rightEdge w.edgeRun (linePixels lanes) with
  | some left, some right =>
    if widthLow w ≤ right + 1 - left ∧ right + 1 - left ≤ widthHigh w then some (left, right) else none
  | _, _ => none

/-! ### Centre, width, geometry (R21 to R23) -/

/-- One eighth of the way toward a measurement, rounded toward zero (R21). -/
def smoothed (old measured : Nat) : Nat := ((old : Int) + ((measured : Int) - old).tdiv 8).toNat

/-- The channel geometry of C, W and SPAN_RATIO (R22). -/
def geometryOf (centre width spanRatio : Nat) : Geometry :=
  let pitch := width * spanRatio / 104448
  { pitch := pitch
    halfWidth := max 1 (3 * pitch / 128)
    pixel := mapTable (fun k _ => ((centre : Int) + ((2 * (k.val : Int) - 101) * pitch) / 2) / 16)
      (Vector.replicate 102 0) }

/-- The tracker with its geometry recomputed from its C, W and working SPAN_RATIO. -/
def Tracker.regeometry (t : Tracker) : Tracker :=
  { t with geometry := geometryOf t.centre t.width t.working.spanRatio }

/-- C and W seeded or smoothed from valid edges, and the geometry recomputed (R21). -/
def Tracker.measure (t : Tracker) (left right : Nat) : Tracker :=
  let xc := 8 * (left + right)
  let xw := 16 * (right + 1 - left)
  Tracker.regeometry
    { t with
      centre := if t.seeded then smoothed t.centre xc else xc
      width := if t.seeded then smoothed t.width xw else xw
      seeded := true }

/-- Whether a pixel position is light; positions outside 0..2047 count as neither (R23). -/
def lightAt (lanes : Vector LanePixels 4) (p : Int) : Bool :=
  decide (0 ≤ p ∧ p < 2048) && pixelAt lanes p.toNat

/-- How many pixels of a channel's window are light (R22, R23). -/
def windowLight (g : Geometry) (lanes : Vector LanePixels 4) (c : Channel) : Nat :=
  ((List.range (2 * g.halfWidth + 1)).filter fun j => lightAt lanes (g.pixel[c] - g.halfWidth + j)).length

/-- The 102 channel states of a line under a geometry (R23): open when more than h pixels are light. -/
def channelStates (g : Geometry) (lanes : Vector LanePixels 4) : Vector Bool 102 :=
  mapTable (fun c _ => decide (g.halfWidth < windowLight g lanes c)) (Vector.replicate 102 false)

/-! ### State changes of the tracker -/

/-- The state with another tracker. -/
def State.setTracker (s : State) (t : Tracker) : State := { s with tracker := t }

/-- The working geometry loaded from the settings (R18). -/
def loadWorking (s : State) : State :=
  s.setTracker { s.tracker with working := workingGeometryOf s.settings }

/-- The line timer stopped (R15). -/
def stopLineTimer (s : State) : State := { s with scan := { s.scan with lineTimer := none } }

/-- The roll withdrawal (R32): the keys (R106), the pedals (R174) and the chord latches (R73), as one
event, after which a WAITING head is examined once (R132). -/
def rollWithdrawal (s : State) : State :=
  clearLatches (withdrawPedals (settling none (withdrawSource .roll) s))

/-- The number of a loss reason in a frame. -/
def lossNumber : LossReason → Nat
  | .edges => 0
  | .gap => 1
  | .silent => 2

/-- Entry to LOST (R29). -/
def enterLost (reason : LossReason) (line : LineNo) (s : State) : State :=
  let lost := s.setTracker { s.tracker with mode := .lost, lockCount := 0 }
  (stopLineTimer (rollWithdrawal (emptyApertures lost))).raise .trackLost
    (byteOf (lossNumber reason) :: fieldLine line)

/-- The tracker's counts at 0 and its state STOPPED. -/
def Tracker.stop (t : Tracker) : Tracker :=
  { t with mode := .stopped, lockCount := 0, edgeFailures := 0, endMarks := 0 }

/-- Entry to STOPPED from LOCKED (R31). -/
def stopFromLocked (s : State) : State :=
  stopLineTimer (rollWithdrawal (emptyApertures (s.setTracker s.tracker.stop)))

/-- The end of the roll (R31). -/
def rollEnd (line : LineNo) (s : State) : State :=
  (resetContexts (stopFromLocked s)).raise .rollEnd (fieldLine line)

/-- Entry to LOCKED on the locking line (R25). The relock flag of the notice is sent as 0 when clear and 1 when set
(log 13). -/
def enterLocked (ln : CompletedLine) (s : State) : State :=
  let relock := decide (s.tracker.mode = .lost)
  let states := channelStates s.tracker.geometry ln.lanes
  let locked := s.setTracker
    { s.tracker with mode := .locked, edgeFailures := 0, endMarks := 0, lastStates := states }
  (lockMark states locked).raise .trackLocked (fieldLine ln.number ++ fieldBool relock)

/-- The tracker after a line in SEEKING or LOST: the estimates and the lock count (R24). -/
def Tracker.seek (t : Tracker) (ln : CompletedLine) : Tracker :=
  let before := if 3 < ln.missing then 0 else t.lockCount
  match validEdges t.working ln.lanes with
  | some (left, right) => { t.measure left right with lockCount := before + 1 }
  | none => { t with lockCount := 0 }

/-- A line taken in SEEKING or LOST (R24). -/
def seekLine (ln : CompletedLine) (s : State) : State :=
  let t := s.setTracker (s.tracker.seek ln)
  if s.setting .lockLines ≤ t.tracker.lockCount then enterLocked ln t else t

/-- The number of open control channels (R30). -/
def openControls (states : Vector Bool 102) : Nat :=
  (allChannels.filter fun c => decide (c.val < 7 ∨ 95 ≤ c.val) && states[c]).length

/-- Whether channel states bear the end mark (R30). END_MODE 0 is STRICT, 1 TOLERANT. -/
def bearsEndMark (s : State) (states : Vector Bool 102) : Bool :=
  decide ((if s.setting .endMode = 0 then 14 else 13) ≤ openControls states)

/-- The held lines in front of a LOCKED line whose missing count is `m` (R27): `left` of them are still to
be sent. -/
def sendHeldLines (ln : CompletedLine) : Nat → State → State
  | 0, s => s
  | left + 1, s =>
    sendHeldLines ln left
      (takeSampledLine (ln.number - BitVec.ofNat 16 (left + 1)) ln.time s.tracker.lastStates s)

/-- Steps 4 to 6 of R26: the channel states, the end mark (R30), and the sampled line. -/
def sampleLine (ln : CompletedLine) (s : State) : State :=
  let states := channelStates s.tracker.geometry ln.lanes
  let marks := if bearsEndMark s states then s.tracker.endMarks + 1 else 0
  if s.setting .endLines ≤ marks then rollEnd ln.number s
  else
    takeSampledLine ln.number ln.time states
      (s.setTracker { s.tracker with endMarks := marks, lastStates := states })

/-- The tracker after the edges of a LOCKED line (R26 step 3). -/
def Tracker.follow (t : Tracker) (ln : CompletedLine) : Tracker :=
  match validEdges t.working ln.lanes with
  | some (left, right) => { t.measure left right with edgeFailures := 0 }
  | none => { t with edgeFailures := t.edgeFailures + 1 }

/-- Steps 3 to 6 of R26. -/
def followLine (ln : CompletedLine) (s : State) : State :=
  let t := s.setTracker (s.tracker.follow ln)
  if s.setting .edgeLossLines ≤ t.tracker.edgeFailures then seekLine ln (enterLost .edges ln.number t)
  else sampleLine ln t

/-- A line taken in LOCKED (R26). -/
def lockedLine (ln : CompletedLine) (s : State) : State :=
  if 3 < ln.missing then seekLine ln (enterLost .gap ln.number s)
  else followLine ln (sendHeldLines ln ln.missing s)

/-- The restart mark of a line: the working geometry loaded and, in LOCKED, the geometry recomputed
(R18). -/
def applyRestartMark (s : State) : State :=
  let loaded := loadWorking s
  if loaded.tracker.mode = .locked then loaded.setTracker loaded.tracker.regeometry else loaded

/-- The number of the line noted as the last the tracker took (R29). -/
def noteLine (ln : CompletedLine) (s : State) : State :=
  s.setTracker { s.tracker with lastLine := ln.number }

/-- A completed line taken by the tracker (R17). -/
def takeLine (ln : CompletedLine) (s : State) : State :=
  let t := if ln.mark then applyRestartMark s else s
  match t.tracker.mode with
  | .stopped => t
  | .seeking => seekLine ln (noteLine ln t)
  | .lost => seekLine ln (noteLine ln t)
  | .locked => lockedLine ln (noteLine ln t)

end Sys2Proof.Machine
end

