-- ==== Sys2Proof/Machine/ScanOps.lean ====
section
/-! DEFINITION. The scan receiver: segments, the header code, line assembly, the line timer
(01_scan_link). -/

namespace Sys2Proof.Machine

/-! ### The header correction code (R2, R3) -/

/-- The positions of header bits 23 down to 0 (01_scan_link "Header correction code"). -/
def dataPositions : List Nat :=
  [3, 5, 6, 7, 9, 10, 11, 12, 13, 14, 15, 17, 18, 19, 20, 21, 22, 23, 24, 25, 26, 27, 28, 29]

/-- The 29 positions of the received word with their bits: header bits, then check bits c0..c4. -/
def codeWord (header : BitVec 24) (check : Byte) : List (Nat × Bool) :=
  dataPositions.mapIdx (fun i p => (p, header.getMsbD i))
    ++ (List.range 5).map fun j => (2 ^ j, check.getLsbD j)

/-- The syndrome: the exclusive-OR of the positions holding a 1 (R3). -/
def syndrome (word : List (Nat × Bool)) : Nat := word.foldl (fun x e => if e.2 then x ^^^ e.1 else x) 0

/-- The overall check is wrong: the 29 bits and p hold an odd number of ones (R3). -/
def overallWrong (word : List (Nat × Bool)) (p : Bool) : Bool := word.foldl (fun x e => x != e.2) p

/-- The outcome of the header check (R3). -/
inductive HeaderOutcome where
  | clean (header : BitVec 24)
  | corrected (header : BitVec 24)
  | uncorrectable
  deriving DecidableEq, Repr

/-- The header with the bit at a position inverted; a check bit's position leaves it as received (R3). -/
def invertAt (header : BitVec 24) (position : Nat) : BitVec 24 :=
  if position ∈ dataPositions then header ^^^ ((1 : BitVec 24) <<< (23 - dataPositions.idxOf position))
  else header

/-- The header check of R3. Bits 7..6 of the check byte are not read (R2). -/
def checkHeader (header : BitVec 24) (check : Byte) : HeaderOutcome :=
  let word := codeWord header check
  let syn := syndrome word
  if overallWrong word (check.getLsbD 5) then
    if 30 ≤ syn then .uncorrectable
    else if syn = 0 then .corrected header
    else .corrected (invertAt header syn)
  else if syn = 0 then .clean header
  else .uncorrectable

/-! ### Line numbers (R6) and lane sets -/

/-- How a line number stands to a reference number (R6). -/
inductive LineOrder where
  | same
  | ahead
  | behind
  deriving DecidableEq, Repr

/-- The comparison of R6. -/
def compareLine (n r : LineNo) : LineOrder :=
  if n = r then .same else if (n - r).toNat ≤ 32767 then .ahead else .behind

/-- The missing count of a line against the reference line (R6, R10). A line that is not ahead of the
reference has none by R6: a free value (log 10). -/
def missingCount (n : LineNo) : Option LineNo → Nat
  | none => 0
  | some r =>
    match compareLine n r with
    | .ahead => (n - r).toNat - 1
    | _ => Config.missingCountBehind (n - r).toNat

/-- The set that holds one lane. -/
def laneBit (lane : Fin 4) : LaneSet := (1 : LaneSet) <<< lane.val

/-- The present value of LANE_ENABLE. -/
def laneEnable (s : State) : LaneSet := BitVec.ofNat 4 (s.setting .laneEnable)

/-! ### Assembly (R7 to R14) -/

/-- The state with another scan receiver. -/
def State.setScan (s : State) (x : Scan) : State := { s with scan := x }

/-- A discarded burst or segment (R13). -/
def discardSegment (s : State) : State :=
  s.setScan { s.scan with segmentsDiscarded := bump s.scan.segmentsDiscarded }

/-- A restart that is pending takes effect (R14). -/
def Scan.restart (x : Scan) : Scan :=
  if x.restartPending then { x with restartPending := false, restartMark := true } else x

/-- The line timer at the end of a hand-over (R15). -/
def startLineTimer (time : Time) (s : State) : State :=
  s.setScan { s.scan with
    lineTimer :=
      if s.tracker.mode = .locked ∧ s.setting .lineTimeout ≠ 0 then
        some (timePlus time (1000 * (s.setting .lineTimeout : Int)))
      else none }

/-- The current line completed and handed over (R10). -/
def completeLine (c : CurrentLine) (s : State) : State :=
  let handed := takeLine
    { number := c.number
      lanes := c.lanes
      time := c.arrival
      missing := missingCount c.number s.scan.reference
      mark := s.scan.restartMark } s
  startLineTimer c.arrival (handed.setScan (Scan.restart
    { handed.scan with reference := some c.number, restartMark := false, current := none }))

/-- A current line stored, and completed when every required lane has delivered (R8, R9). -/
def storeLine (c : CurrentLine) (s : State) : State :=
  let stored := s.setScan { s.scan with current := some c }
  if c.delivered = c.required then completeLine c stored else stored

/-- A new current line begun by a segment (R8). -/
def beginLine (lane : Fin 4) (line : LineNo) (payload : LanePixels) (s : State) : State :=
  let s1 := s.setScan s.scan.restart
  storeLine
    { number := line
      required := laneEnable s1
      delivered := laneBit lane
      lanes := (Vector.replicate 4 (BitVec.allOnes 512)).set lane payload
      arrival := s1.clock } s1

/-- A segment of the current line (R9). -/
def fillLine (lane : Fin 4) (payload : LanePixels) (c : CurrentLine) (s : State) : State :=
  storeLine
    { c with
      delivered := c.delivered ||| laneBit lane
      lanes := c.lanes.set lane payload
      arrival := s.clock } s

/-- The current line dropped (R11). -/
def dropLine (c : CurrentLine) (s : State) : State :=
  s.setScan (Scan.restart
    { s.scan with
      current := none
      linesDropped := bump s.scan.linesDropped
      lastSyncFail := some { number := c.number, required := c.required, delivered := c.delivered } })

/-- The lane set a segment of a line must belong to (R7). -/
def applicableLanes (line : LineNo) (s : State) : LaneSet :=
  match s.scan.current with
  | some c => if c.number = line then c.required else laneEnable s
  | none => laneEnable s

/-- Whether a line number is stale in IDLE: the same as the reference line or behind it (R8). -/
def staleInIdle (line : LineNo) (s : State) : Bool :=
  match s.scan.reference with
  | some r => decide (compareLine line r ≠ .ahead)
  | none => false

/-- A valid segment taken in assembly (R7 to R12). -/
def takeSegment (lane : Fin 4) (line : LineNo) (payload : LanePixels) (s : State) : State :=
  if !(applicableLanes line s).getLsbD lane.val then discardSegment s
  else
    match s.scan.current with
    | none => if staleInIdle line s then discardSegment s else beginLine lane line payload s
    | some c =>
      match compareLine line c.number with
      | .same => fillLine lane payload c s
      | .ahead => beginLine lane line payload (dropLine c s)
      | .behind => discardSegment s

/-! ### A segment's bytes (R1, R4, R5) -/

/-- The header of a segment: bytes 0 to 2. -/
def segmentHeader (bytes : List Byte) : BitVec 24 := BitVec.ofNat 24 (valueOf (bytes.take 3))

/-- The payload of a segment: bytes 4 to 67. -/
def segmentPayload (bytes : List Byte) : List Byte := (bytes.drop 4).take 64

/-- A trusted header goes on to the identity check and the payload check (R4, R5). -/
def takeHeader (lane : Fin 4) (header : BitVec 24) (bytes : List Byte) (s : State) : State :=
  if header.extractLsb' 18 6 ≠ 0b010110#6 ∨ (header.extractLsb' 16 2).toNat ≠ lane.val then discardSegment s
  else if (crc16 (segmentPayload bytes)).toNat ≠ valueOf (bytes.drop 68) then discardSegment s
  else
    takeSegment lane (header.extractLsb' 0 16) (BitVec.ofNat 512 (valueOf (segmentPayload bytes))) s

/-- HEADERS_CORRECTED counts one more (R13). -/
def countCorrected (s : State) : State :=
  s.setScan { s.scan with headersCorrected := bump s.scan.headersCorrected }

/-- A burst of 70 bytes taken as a segment (R1 to R5). -/
def checkSegment (lane : Fin 4) (bytes : List Byte) (s : State) : State :=
  match checkHeader (segmentHeader bytes) (bytes.getD 3 0) with
  | .clean header => takeHeader lane header bytes s
  | .corrected header => takeHeader lane header bytes (countCorrected s)
  | .uncorrectable => discardSegment s

/-- The end of a burst on a lane (R1): the lane's buffer is emptied, and the burst is taken, discarded, or,
for a burst ignored from a reset on, neither taken nor counted (R16). -/
def takeBurst (lane : Fin 4) (bytes : List Byte) (s : State) : State :=
  let burst := s.scan.buffers[lane] ++ bytes
  let emptied := s.setScan { s.scan with buffers := s.scan.buffers.set lane [] }
  if !s.loader.ready then emptied
  else if s.scan.ignored.getLsbD lane.val then
    emptied.setScan { emptied.scan with ignored := s.scan.ignored &&& ~~~(laneBit lane) }
  else if burst.length = 70 then checkSegment lane burst emptied
  else discardSegment emptied

end Sys2Proof.Machine
end

