-- ==== Sys2Proof/Machine/ConfigOps.lean ====
section
/-! DEFINITION. Writing a setting: the tests in the order of the owning chapter, and the effects at the
write (R199 and the rules it names). -/

namespace Sys2Proof.Machine

/-- Whether a value breaks the order of the pair a setting belongs to (R116, R142). -/
def pairBroken (s : State) (x : Setting) (v : Nat) : Bool :=
  match x with
  | .velMin => decide (s.setting .velMax ≤ v)
  | .velMax => decide (v ≤ s.setting .velMin)
  | .heatWarn => decide (s.setting .heatMax ≤ v)
  | .heatMax => decide (v ≤ s.setting .heatWarn)
  | _ => false

/-- Whether a key is in PENDING, STRIKE or HOLD (R116). -/
def holdsNote : KeyPhase → Bool
  | .pending _ _ => true
  | .strike _ _ _ _ _ _ => true
  | .hold _ _ _ _ _ => true
  | _ => false

/-- Whether a write is refused with IN_USE (R116, R134). -/
def settingInUse (s : State) (x : Setting) (v : Nat) : Bool :=
  match x with
  | .velMin => allKeys.any fun k => holdsNote (s.key k).phase
  | .velMax => allKeys.any fun k => holdsNote (s.key k).phase
  | .poolCapacity => decide (v < claimSum s)
  | _ => false

/-- Whether a write of a setting restarts assembly (R14, R18). -/
def restartsAssembly : Setting → Bool
  | .laneEnable => true
  | .edgeRun => true
  | .nominalWidth => true
  | .widthTol => true
  | .spanRatio => true
  | _ => false

/-- A restart of assembly becomes pending, and takes effect at once between lines (R14). -/
def requestRestart (s : State) : State :=
  let x := { s.scan with restartPending := true }
  s.setScan (if s.scan.current.isNone then x.restart else x)

/-- A key's strike made unsensed if it is sensed (R126). -/
def unsenseIfSensed (k : Key) (s : State) : State :=
  match (s.key k).phase with
  | .strike _ _ _ true _ _ => unsenseStrike k s
  | _ => s

/-- Every sensed strike in progress made unsensed (R126, R151). The rules give no order among those that end at
once; increasing key order is the model's choice (log 30). -/
def unsenseAll (s : State) : State := allKeys.foldl (fun t k => unsenseIfSensed k t) s

/-- What a write that is taken does beside changing the setting: the moments the owning chapters state. -/
def settingEffect (x : Setting) (v : Nat) (s : State) : State :=
  match x with
  | .lineTimeout => if v = 0 then stopLineTimer s else s
  | .holdTimeout => settling none timeOutDue s
  | .sensing => if v = 0 then settling none unsenseAll s else s
  | .poolCapacity => reexamineHead s
  | .cueLookahead => serviceCue s
  | .pedalLeadOn => serviceCue s
  | _ => if restartsAssembly x then requestRestart s else s

/-- The state with a setting's value replaced. -/
def State.putSetting (s : State) (x : Setting) (v : Nat) : State := { s with settings := s.settings.put x v }

/-- A write of a setting with a number that is known, while no commit is in flight (R199). For PEDAL_SETTLE, whose
rule gives its two refusals no order (R177), NOT_PERMITTED before BAD_ARGUMENT is the model's choice (log 32). -/
def writeSetting (x : Setting) (v : Nat) (s : State) : Answer :=
  if x.row.guarded && !s.servicePin then refuse s .notPermitted
  else if !x.inRange v then refuse s .badArgument
  else if pairBroken s x v then refuse s .badArgument
  else if settingInUse s x v then refuse s .inUse
  else answerOk (settingEffect x v (s.putSetting x v)) []

end Sys2Proof.Machine
end

