-- ==== Sys2Proof/Machine/Port.lean ====
section
/-! DEFINITION. The commands of the host port: SPI_WRITE_TRANSACTION, SPI_READ_TRANSACTION, BAD_REQUEST,
STATUS, TIME_READ, CONFIG_READ, CONFIG_WRITE (11_host_port R193 to R199). -/

namespace Sys2Proof.Machine

/-! ### Transactions (R193, R194) -/

/-- A write transaction's rise (R193, R194): one in progress since a full reset ends ignored, whatever its
bytes, and so does one of no bytes. One whose first byte is 00 is a read (WellFormed). -/
def writeTransaction (bytes : List Byte) (s : State) : State :=
  if s.port.ignoring then endIgnored s
  else
    match bytes with
    | [] => s
    | b :: _ => if b = 0 then s else offerFrame bytes s

/-- SPI_WRITE_TRANSACTION (R194). -/
def execSpiWriteTransaction (t : Time) (bytes : List Byte) (s : State) : Host.Outcome State Fault Refusal :=
  .next (writeTransaction bytes (s.arrive t))

/-- A read transaction's fall, rise, or both (R193; log 6). -/
def readTransaction (phase : ReadPhase) (s : State) : State :=
  match phase with
  | .fall => readFall s
  | .rise clocked => readRise clocked s
  | .whole clocked => readRise clocked (readFall s)

/-- SPI_READ_TRANSACTION (R193). -/
def execSpiReadTransaction (t : Time) (phase : ReadPhase) (s : State) : Host.Outcome State Fault Refusal :=
  .next (readTransaction phase (s.arrive t))

/-! ### BAD_REQUEST (R195) -/

/-- BAD_REQUEST (R195). -/
def execBadRequest (t : Time) (s : State) : Host.Outcome State Fault Refusal :=
  .next (serveBadRequest (s.arrive t))

/-! ### STATUS and TIME_READ (R198) -/

/-- The number of an image outcome in a frame. -/
def outcomeNumber : ImageOutcome → Nat
  | .loaded => 0
  | .absent => 1
  | .invalid => 2

/-- The number of a commit outcome in a frame. -/
def commitNumber : CommitOutcome → Nat
  | .none => 0
  | .done => 1
  | .failed => 2

/-- The commit state with the word reached (R198): IDLE 0, IN_FLIGHT 1 (log 13). -/
def fieldCommit (c : Option Commit) : List Byte :=
  fieldBool c.isSome ++ fieldOptional 2 (c.map fun x => field16 x.wordReached)

/-- The data of a STATUS (R198). The service pin is sent as 0 when low and 1 when high, QUIET as 0 when clear and 1
when set (log 13). -/
def statusData (s : State) : List Byte :=
  fieldBool s.loader.ready ++ fieldOptional 1 (s.loader.outcome.map fun o => [byteOf (outcomeNumber o)])
    ++ fieldCommit s.loader.commit ++ [byteOf (commitNumber s.loader.lastCommit)]
    ++ fieldBool s.servicePin ++ fieldBool s.quiet
    ++ [byteOf s.port.intake.length, byteOf s.port.responses.length, byteOf s.port.notices.length]
    ++ field16 s.port.framesDiscarded ++ field16 s.port.noticesDiscarded
    ++ field16 s.hub.discarded ++ field16 s.hub.implausible ++ field16 s.hub.unexpected

/-- STATUS with the level of the service pin (R198). -/
def actStatus (pin : Bool) (_arguments : List Byte) (s : State) : Answer :=
  let sampled := { s with servicePin := pin }
  answerOk sampled (statusData sampled)

/-- STATUS (R198), code 01, executed in every load state. -/
def execStatus (t : Time) (pin : Bool) (s : State) : Host.Outcome State Fault Refusal :=
  .next (serveRequest 0x01 true (actStatus pin) (s.arrive t))

/-- TIME_READ (R198). -/
def actTimeRead (_arguments : List Byte) (s : State) : Answer := answerOk s (fieldTime s.clock)

/-- TIME_READ (R198), code 02. -/
def execTimeRead (t : Time) (s : State) : Host.Outcome State Fault Refusal :=
  .next (serveRequest 0x02 false actTimeRead (s.arrive t))

/-! ### CONFIG_READ and CONFIG_WRITE (R199) -/

/-- CONFIG_READ (R199). -/
def actConfigRead (arguments : List Byte) (s : State) : Answer :=
  match settingOfNumber (argByte arguments 0) with
  | some x => answerOk s (field32 (s.setting x))
  | none => refuse s .badArgument

/-- CONFIG_READ (R199), code 03. -/
def execConfigRead (t : Time) (s : State) : Host.Outcome State Fault Refusal :=
  .next (serveRequest 0x03 false actConfigRead (s.arrive t))

/-- CONFIG_WRITE with the level of the service pin (R199): the number, then BUSY, then the tests of the
setting's chapter. -/
def actConfigWrite (pin : Bool) (arguments : List Byte) (s : State) : Answer :=
  let sampled := { s with servicePin := pin }
  match settingOfNumber (argByte arguments 0) with
  | none => refuse sampled .badArgument
  | some x =>
    if s.loader.commit.isSome then refuse sampled .busy
    else writeSetting x (arg32 arguments 1) sampled

/-- CONFIG_WRITE (R199), code 04. -/
def execConfigWrite (t : Time) (pin : Bool) (s : State) : Host.Outcome State Fault Refusal :=
  .next (serveRequest 0x04 false (actConfigWrite pin) (s.arrive t))

end Sys2Proof.Machine
end

