-- ==== Sys2Proof/Machine/Memory.lean ====
section
/-! DEFINITION. The EEPROM's bytes: reading, writing, and the canonical form (11 "The voicing image"). -/

namespace Sys2Proof.Machine

/-- The number of bytes of the EEPROM: 8 KiB. -/
def eepromSize : Nat := 8192

/-- What an unlisted byte reads as: an erased byte, FF (log 7). -/
def erasedByte : Byte := 0xFF

/-- The canonical form of a list of cells: addresses strictly rising from `least` on, within the EEPROM,
no cell holding an erased byte. -/
def Memory.wfFrom : Nat → List Host.Cell → Bool
  | _, [] => true
  | least, c :: cs => decide (least ≤ c.1 ∧ c.1 < eepromSize ∧ c.2 ≠ erasedByte) && Memory.wfFrom (c.1 + 1) cs

/-- The canonical form holds. -/
def Memory.wf (m : List Host.Cell) : Bool := Memory.wfFrom 0 m

/-- The byte at an address. -/
def Memory.read (a : Nat) : List Host.Cell → Byte
  | [] => erasedByte
  | c :: cs => if c.1 = a then c.2 else if a < c.1 then erasedByte else Memory.read a cs

/-- A byte written at an address; writing an erased byte removes the cell. -/
def Memory.write (a : Nat) (b : Byte) : List Host.Cell → List Host.Cell
  | [] => if b = erasedByte then [] else [(a, b)]
  | c :: cs =>
    if c.1 = a then (if b = erasedByte then cs else (a, b) :: cs)
    else if a < c.1 then (if b = erasedByte then c :: cs else (a, b) :: c :: cs)
    else c :: Memory.write a b cs

/-- Word w, at byte addresses 2w (more significant) and 2w + 1. -/
def Memory.word (m : List Host.Cell) (w : Nat) : Nat :=
  (Memory.read (2 * w) m).toNat * 256 + (Memory.read (2 * w + 1) m).toNat

/-- A word written at word address w. -/
def Memory.writeWord (w : Nat) (v : Word16) (m : List Host.Cell) : List Host.Cell :=
  Memory.write (2 * w + 1) (v.setWidth 8) (Memory.write (2 * w) ((v >>> 8).setWidth 8) m)

end Sys2Proof.Machine
end

