-- ==== Sys2Proof/Machine/ImageOps.lean ====
section
/-! DEFINITION. The voicing image: its words, the pages of a commit, and the judgement and application of a
loaded image (11_host_port R200, R201, R203, R204). -/

namespace Sys2Proof.Machine

/-! ### Voicing records (R152) -/

/-- Whether two neighbouring values of a curve keep an order everywhere. -/
def curveOrdered (keeps : Nat → Nat → Bool) (curve : Vector Nat 8) : Bool :=
  (List.finRange 7).all fun i => keeps curve[i.castSucc] curve[i.succ]

/-- Every field of a voicing record within its range, the duties non-decreasing and the flights
non-increasing (R152, R161, R201). -/
def VoicingRecord.valid (r : VoicingRecord) : Bool :=
  (r.duties.toList.all fun d => decide (d ≤ 1023)) && (r.flights.toList.all fun f => decide (f ≤ 4000))
    && decide (r.holdDuty ≤ 511) && decide (-255 ≤ r.softTrim ∧ r.softTrim ≤ 255)
    && decide (10 ≤ r.repeatGap ∧ r.repeatGap ≤ 200)
    && curveOrdered (fun a b => decide (a ≤ b)) r.duties && curveOrdered (fun a b => decide (b ≤ a)) r.flights

/-- The record whose 19 words a function gives: 8 duties, 8 flights, hold duty, soft trim (two's
complement), repeat gap (11, image layout and VOICE_WRITE). -/
def recordOfWords (word : Nat → Nat) : VoicingRecord where
  duties := #v[word 0, word 1, word 2, word 3, word 4, word 5, word 6, word 7]
  flights := #v[word 8, word 9, word 10, word 11, word 12, word 13, word 14, word 15]
  holdDuty := word 16
  softTrim := signedValue 16 (word 17)
  repeatGap := word 18

/-- Word j of a record in the image: its 19 fields and the spare word FFFF. -/
def recordWord (r : VoicingRecord) (j : Nat) : Word16 :=
  if j < 8 then BitVec.ofNat 16 (r.duties.toList.getD j 0)
  else if j < 16 then BitVec.ofNat 16 (r.flights.toList.getD (j - 8) 0)
  else if j = 16 then BitVec.ofNat 16 r.holdDuty
  else if j = 17 then BitVec.ofInt 16 r.softTrim
  else if j = 18 then BitVec.ofNat 16 r.repeatGap
  else 0xFFFF

/-! ### The words of a new image (R203) -/

/-- The word of the settings at a place of the image: a setting's value, the more significant word first
for the two that take two; FFFF where no setting stands. -/
def settingWord (settings : Settings) (w : Nat) : Word16 :=
  match allSettings.find? fun x => decide (x.row.word = w ∨ (x.row.wide = true ∧ x.row.word + 1 = w)) with
  | some x =>
    if x.row.wide = true ∧ x.row.word = w then BitVec.ofNat 16 (settings.get x / 65536)
    else BitVec.ofNat 16 (settings.get x % 65536)
  | none => 0xFFFF

/-- Word w of the image formed from a copy of the settings and the voicing table (R203). -/
def imageWord (settings : Settings) (voicing : Vector VoicingRecord 88) (w : Nat) : Word16 :=
  if w = 0 then 0x4E38
  else if w = 1 then 1828
  else if w = 2 then 1
  else if w < 48 then settingWord settings w
  else if 64 ≤ w ∧ w < 1824 then
    recordWord (voicing.toList.getD ((w - 64) / 20) VoicingRecord.factory) ((w - 64) % 20)
  else 0xFFFF

/-- The bytes of words 0..1827, in address order. -/
def imageBytes (word : Nat → Nat) : List Byte := (List.range 1828).flatMap fun w => field16 (word w)

/-- The CRC of a new image's words 0..1827 (R203). -/
def imageCrc (settings : Settings) (voicing : Vector VoicingRecord 88) : Word16 :=
  crc16 (imageBytes fun w => (imageWord settings voicing w).toNat)

/-! ### The pages of a commit (R204) -/

/-- The number of pages of a commit: word 1828, the 115 pages of words 0..1827, word 1828 again. -/
def commitPages : Nat := 117

/-- The number of the last word of a page of the commit. -/
def pageLastWord (page : Nat) : Nat :=
  if page = 0 ∨ 116 ≤ page then 1828 else min (16 * page - 1) 1827

/-- The EEPROM after a page of the commit has been written: first word 1828 with the complement of the new
CRC, then words 0..1827 in pages of 16, last word 1828 with the new CRC (R204). -/
def writePage (c : Commit) (m : List Host.Cell) : List Host.Cell :=
  if c.page = 0 then Memory.writeWord 1828 (~~~c.crc) m
  else if 116 ≤ c.page then Memory.writeWord 1828 c.crc m
  else
    (List.range (pageLastWord c.page + 1 - 16 * (c.page - 1))).foldl
      (fun m' j => Memory.writeWord (16 * (c.page - 1) + j)
        (imageWord c.settings c.voicing (16 * (c.page - 1) + j)) m') m

/-! ### Judging and applying a loaded image (R200, R201) -/

/-- The judgement of an image read whole: none when it is LOADED, else the first cause that fails (R200). -/
def judgeImage (m : List Host.Cell) : Option InvalidCause :=
  if Memory.word m 0 ≠ 0x4E38 then some .signature
  else if Memory.word m 1 ≠ 1828 then some .length
  else if (crc16 (imageBytes (Memory.word m))).toNat ≠ Memory.word m 1828 then some .crc
  else none

/-- A value that a setting takes from the image: its default when it is out of range. -/
def settingOrDefault (x : Setting) (v : Nat) : Nat := if x.inRange v then v else x.row.dflt

/-- The value a setting takes from its word or words (R201; log 16 for a word FFFF of the two that take
two). -/
def loadedSetting (m : List Host.Cell) (x : Setting) : Nat :=
  let first := Memory.word m x.row.word
  if x.row.wide = true then
    if first = 0xFFFF ∨ Memory.word m (x.row.word + 1) = 0xFFFF then x.row.dflt
    else settingOrDefault x (first * 65536 + Memory.word m (x.row.word + 1))
  else if first = 0xFFFF then x.row.dflt
  else settingOrDefault x first

/-- A pair of settings that must keep the first below the second: both take their defaults otherwise. -/
def pairOrDefaults (low high : Setting) (s : Settings) : Settings :=
  if s.get low < s.get high then s else (s.put low low.row.dflt).put high high.row.dflt

/-- The settings of a LOADED image (R201). -/
def loadedSettings (m : List Host.Cell) : Settings :=
  pairOrDefaults .heatWarn .heatMax (pairOrDefaults .velMin .velMax (settingsOf (loadedSetting m)))

/-- The voicing record of a key in a LOADED image, the factory record when it is not fit (R201). -/
def loadedRecord (m : List Host.Cell) (k : Nat) : VoicingRecord :=
  let r := recordOfWords fun j => Memory.word m (64 + 20 * k + j)
  if r.valid ∧ Memory.word m (64 + 20 * k + 19) = 0xFFFF then r else VoicingRecord.factory

/-- The voicing table of a LOADED image: the factory records when bit 0 of the flags word is clear (R201). -/
def loadedVoicing (m : List Host.Cell) : Vector VoicingRecord 88 :=
  if Memory.word m 2 % 2 = 1 then
    mapTable (fun k _ => loadedRecord m k.val) (Vector.replicate 88 VoicingRecord.factory)
  else Vector.replicate 88 VoicingRecord.factory

end Sys2Proof.Machine
end

