-- ==== Sys2Proof/Machine/Resets.lean ====
section
/-! DEFINITION. The resets and the completion of the image load: FULL_RESET, IMAGE_LOAD_COMPLETE,
PERFORMANCE_RESET (11_host_port R200 to R202, R205, R206, and the reset rule of each chapter). -/

namespace Sys2Proof.Machine

/-! ### FULL_RESET (R205) -/

/-- Whether the page in its write cycle at a full reset was taken: an open value (R204, log 9). -/
def eepromAtReset (s : State) : List Host.Cell :=
  match s.loader.commit with
  | none => s.loader.eeprom
  | some c => if Config.interruptedPageTaken s.openCount then writePage c s.loader.eeprom else s.loader.eeprom

/-- One open value is drawn when a full reset interrupts a commit. -/
def openCountAtReset (s : State) : Nat :=
  if s.loader.commit.isSome then s.openCount + 1 else s.openCount

/-- The part after a full reset (R205; R16, R36, R56, R58, R108, R128, R136, R143, R144, R162, R178, R179,
R191, R193). The EEPROM, the service pin and the queue of commands lie outside the part. -/
def fullResetState (lines : InputLines) (s : State) : State :=
  { State.reset with
    servicePin := s.servicePin
    scan := { Scan.atReset with ignored := lines.framed }
    hub := { HammerPort.atReset with ignoring := lines.hubBusy }
    port := { HostPort.atReset with ignoring := lines.selected }
    loader := { ImageLoader.atReset with eeprom := eepromAtReset s }
    openCount := openCountAtReset s
    pending := s.pending }

/-- FULL_RESET (R205). -/
def execFullReset (lines : InputLines) (s : State) : Host.Outcome State Fault Refusal :=
  .next (fullResetState lines s)

/-! ### IMAGE_LOAD_COMPLETE (R200 to R202) -/

/-- The image outcome of a load (R200). -/
def loadOutcome (acked : Bool) (m : List Host.Cell) : ImageOutcome :=
  if acked then (if (judgeImage m).isNone then .loaded else .invalid) else .absent

/-- The settings a load gives (R200, R201). -/
def settingsAfterLoad (acked : Bool) (m : List Host.Cell) : Settings :=
  if loadOutcome acked m = .loaded then loadedSettings m else Settings.defaults

/-- The voicing table a load gives (R200, R201). -/
def voicingAfterLoad (acked : Bool) (m : List Host.Cell) : Vector VoicingRecord 88 :=
  if loadOutcome acked m = .loaded then loadedVoicing m else Vector.replicate 88 VoicingRecord.factory

/-- The number of an INVALID cause in a frame. -/
def causeNumber : InvalidCause → Nat
  | .signature => 0
  | .length => 1
  | .crc => 2

/-- The notice of a load that is not LOADED (R202). -/
def noticeLoad (acked : Bool) (m : List Host.Cell) (s : State) : State :=
  if acked then
    match judgeImage m with
    | some cause => s.raise .imageInvalid [byteOf (causeNumber cause)]
    | none => s
  else s.raise .imageAbsent []

/-- The time of the first step of a step timer that starts now (R64, R137, R168). -/
def firstStep (s : State) : Option Time := some (timePlus s.clock 1000)

/-- The blocks started with the settings and the voicing table just taken (R202). The host port, the
clock, the source contexts and a hub burst that runs across the completion are kept (R144, log 20). -/
def startBlocks (framed : LaneSet) (settings : Settings) (voicing : Vector VoicingRecord 88)
    (outcome : ImageOutcome) (s : State) : State :=
  { s with
    settings := settings
    voicing := voicing
    scan := { Scan.atReset with ignored := framed }
    tracker := { Tracker.atReset with working := workingGeometryOf settings }
    apertures := ApertureTable.atReset
    expression :=
      { bass := HalfContext.atReset (settings.get .resetLevel)
        treble := HalfContext.atReset (settings.get .resetLevel)
        nextStep := firstStep s }
    keys := Vector.replicate 88 KeyRecord.atReset
    quiet := false
    queue := StrikeQueue.atReset
    heat := { HeatMonitor.atReset with
      warn := settings.get .heatWarn
      max := settings.get .heatMax
      nextStep := firstStep s }
    hub := { HammerPort.atReset with ignoring := s.hub.ignoring }
    pedals := { PedalServo.atReset with nextStep := firstStep s }
    cue := CuePlayer.atReset
    loader := { s.loader with ready := true, outcome := some outcome, commit := none } }

/-- The completion of the image load (R202); without a load in progress nothing happens (log 2). -/
def completeLoad (acked : Bool) (framed : LaneSet) (s : State) : State :=
  if s.loader.ready then s
  else
    noticeLoad acked s.loader.eeprom
      (startBlocks framed (settingsAfterLoad acked s.loader.eeprom) (voicingAfterLoad acked s.loader.eeprom)
        (loadOutcome acked s.loader.eeprom) s)

/-- IMAGE_LOAD_COMPLETE (R202). -/
def execImageLoadComplete (t : Time) (acked : Bool) (framed : LaneSet) (s : State) :
    Host.Outcome State Fault Refusal :=
  .next (completeLoad acked framed (s.arrive t))

/-! ### PERFORMANCE_RESET (R206) -/

/-- What a performance reset leaves of a key's phase (R108). -/
def performancePhase : KeyPhase → KeyPhase
  | .retired r => .retired r
  | _ => .idle

/-- What a performance reset leaves of a pedal (R178). -/
def performancePedal (r : PedalRecord) : PedalRecord :=
  { r with mode := .idle, owner := .roll, target := 0, drive := 0, events := [] }

/-- The scan receiver's assembly cleared and its timer stopped (R16). -/
def clearAssembly (x : Scan) : Scan := { x with current := none, reference := none, lineTimer := none }

/-- The keys, the strike queue, the pedals and the cue player at silence (R108, R128, R178, R191). -/
def silencePerformance (s : State) : State :=
  { s with
    keys := mapTable (fun _ r => { r with phase := performancePhase r.phase }) s.keys
    queue := StrikeQueue.atReset
    pedals := { s.pedals with
      sustain := performancePedal s.pedals.sustain
      shift := performancePedal s.pedals.shift }
    cue := { s.cue with entries := [], orderRef := none, phraseOpen := false } }

/-- PERFORMANCE_RESET as one event (R206): R36, R16, R56, R58, and the silence above. -/
def performanceResetState (s : State) : State :=
  silencePerformance (resetContexts (emptyApertures
    ((s.setTracker s.tracker.stop).setScan (clearAssembly s.scan))))

/-- PERFORMANCE_RESET (R206). -/
def actPerformanceReset (_arguments : List Byte) (s : State) : Answer := answerOk (performanceResetState s) []

/-- PERFORMANCE_RESET (R206), code 05. -/
def execPerformanceReset (t : Time) (s : State) : Host.Outcome State Fault Refusal :=
  .next (serveRequest 0x05 false actPerformanceReset (s.arrive t))

end Sys2Proof.Machine
end

