-- ==== Sys2Proof/Machine/Roll.lean ====
section
/-! DEFINITION. The roll requests: ROLL_START, ROLL_STOP, ROLL_QUERY (02_roll_tracking R33 to R35). -/

namespace Sys2Proof.Machine

/-! ### ROLL_START (R33) -/

/-- The tracker after a ROLL_START, but for its working geometry (R33). -/
def Tracker.start (t : Tracker) : Tracker :=
  { t with
    mode := .seeking
    lockCount := 0
    edgeFailures := 0
    endMarks := 0
    seeded := false
    lastStates := Vector.replicate 102 false }

/-- The scan receiver after a ROLL_START (R16). -/
def startScan (x : Scan) : Scan :=
  { x with
    current := none
    reference := none
    linesDropped := 0
    headersCorrected := 0
    segmentsDiscarded := 0
    lastSyncFail := none }

/-- What a ROLL_START that is taken does (R33, R16, R52, R18). -/
def startRoll (s : State) : State :=
  blindApertures (loadWorking ((s.setTracker s.tracker.start).setScan (startScan s.scan)))

/-- ROLL_START (R33). -/
def actRollStart (_arguments : List Byte) (s : State) : Answer :=
  if s.tracker.mode = .stopped then answerOk (startRoll s) [] else refuse s .state

/-- ROLL_START (R33), code 08. -/
def execRollStart (t : Time) (s : State) : Host.Outcome State Fault Refusal :=
  .next (serveRequest 0x08 false actRollStart (s.arrive t))

/-! ### ROLL_STOP (R34) -/

/-- What a ROLL_STOP does in each tracker state (R34). -/
def stopRoll (s : State) : State :=
  match s.tracker.mode with
  | .stopped => s
  | .seeking => s.setTracker s.tracker.stop
  | .lost => s.setTracker s.tracker.stop
  | .locked => stopFromLocked s

/-- ROLL_STOP (R34). -/
def actRollStop (_arguments : List Byte) (s : State) : Answer := answerOk (stopRoll s) []

/-- ROLL_STOP (R34), code 09. -/
def execRollStop (t : Time) (s : State) : Host.Outcome State Fault Refusal :=
  .next (serveRequest 0x09 false actRollStop (s.arrive t))

/-! ### ROLL_QUERY (R35) -/

/-- The number of a tracker state in a frame. -/
def trackerNumber : TrackerMode → Nat
  | .stopped => 0
  | .seeking => 1
  | .locked => 2
  | .lost => 3

/-- LAST_SYNC_FAIL in a frame: the line number and the two lane sets. -/
def fieldSyncFail (f : SyncFail) : List Byte :=
  fieldLine f.number ++ [byteOf f.required.toNat, byteOf f.delivered.toNat]

/-- The data of a ROLL_QUERY (R35). -/
def rollData (s : State) : List Byte :=
  [byteOf (trackerNumber s.tracker.mode)] ++ field16 s.tracker.centre ++ field16 s.tracker.width
    ++ [byteOf s.tracker.lockCount]
    ++ field16 s.scan.linesDropped ++ field16 s.scan.headersCorrected ++ field16 s.scan.segmentsDiscarded
    ++ fieldOptional 4 (s.scan.lastSyncFail.map fieldSyncFail)
    ++ field16 s.apertures.specks ++ field16 s.apertures.notesMasked ++ field16 s.apertures.notesOutOfRange

/-- ROLL_QUERY (R35). -/
def actRollQuery (_arguments : List Byte) (s : State) : Answer := answerOk s (rollData s)

/-- ROLL_QUERY (R35), code 0A. -/
def execRollQuery (t : Time) (s : State) : Host.Outcome State Fault Refusal :=
  .next (serveRequest 0x0A false actRollQuery (s.arrive t))

end Sys2Proof.Machine
end

