-- ==== Sys2Proof/Machine/ScanLink.lean ====
section
/-! DEFINITION. The commands of the scan link: SEGMENT_ARRIVAL and LINE_TIMER_EXPIRY (01_scan_link R1,
R15). -/

namespace Sys2Proof.Machine

/-- The burst on lane number `lane` taken; there are four lanes (WellFormed). -/
def takeBurstOn (lane : Nat) (bytes : List Byte) (s : State) : State :=
  if h : lane < 4 then takeBurst ⟨lane, h⟩ bytes s else s

/-- SEGMENT_ARRIVAL (R1). -/
def execSegmentArrival (t : Time) (lane : Nat) (bytes : List Byte) (s : State) :
    Host.Outcome State Fault Refusal :=
  .next (takeBurstOn lane bytes (s.arrive t))

/-- A SILENT report (R29): in LOCKED the tracker enters LOST. -/
def reportSilent (s : State) : State :=
  if s.tracker.mode = .locked then enterLost .silent s.tracker.lastLine s else s

/-- The line timer's expiry (R15): the timer stops and SILENT is reported. -/
def expireLineTimer (s : State) : State :=
  match s.scan.lineTimer with
  | some due => if reached s.clock due then reportSilent (stopLineTimer s) else s
  | none => s

/-- LINE_TIMER_EXPIRY (R15). -/
def execLineTimerExpiry (t : Time) (s : State) : Host.Outcome State Fault Refusal :=
  .next (expireLineTimer (s.arrive t))

end Sys2Proof.Machine
end

