-- ==== Sys2Proof/Machine/Timers.lean ====
section
/-! DEFINITION. The timers of the strike queue and of the keys: STRIKE_QUEUE_HEAD_TIMER,
STRIKE_END_TIMER_EXPIRY, GAP_END, RELEASE_TIME (05_the_key_table R92, R94; 06_strike_computation R118,
R125, R126). A timer that does not run or has not come changes nothing but the clock (log 2). -/

namespace Sys2Proof.Machine

/-- An operation on the key with a number; there are keys 1..88 (WellFormed). -/
def onKey (number : Nat) (f : Key → State → State) (s : State) : State :=
  match keyOfNumber number with
  | some k => f k s
  | none => s

/-! ### STRIKE_QUEUE_HEAD_TIMER (R118) -/

/-- The planned launch of a TIMED head has come: the head is examined (R118). -/
def expireHeadTimer (s : State) : State :=
  match s.queue.entries with
  | e :: _ => if s.queue.status = .timed ∧ reached s.clock e.planned then examineHead s else s
  | [] => s

/-- STRIKE_QUEUE_HEAD_TIMER (R118). -/
def execStrikeQueueHeadTimer (t : Time) (s : State) : Host.Outcome State Fault Refusal :=
  .next (expireHeadTimer (s.arrive t))

/-! ### STRIKE_END_TIMER_EXPIRY (R125, R126) -/

/-- A strike's end timer expires: a sensed strike ends as a miss, an unsensed one as if its hammer had
arrived on time (R125, R126). -/
def expireStrike (k : Key) (s : State) : State :=
  match (s.key k).phase with
  | .strike _ _ _ sensed endTimer _ =>
    if reached s.clock endTimer then settling none (if sensed then missStrike k else endStrike k) s else s
  | _ => s

/-- STRIKE_END_TIMER_EXPIRY (R125). -/
def execStrikeEndTimerExpiry (t : Time) (key : Nat) (s : State) : Host.Outcome State Fault Refusal :=
  .next (onKey key expireStrike (s.arrive t))

/-! ### GAP_END (R94) -/

/-- The gap end of a key in DAMP or REPEAT (R94). -/
def endGap (k : Key) (s : State) : State :=
  match (s.key k).phase with
  | .damp g => if reached s.clock g then s.setPhase k .idle else s
  | .waiting m g => if reached s.clock g then settling (some k) (placeNote k m) s else s
  | _ => s

/-- GAP_END (R94). -/
def execGapEnd (t : Time) (key : Nat) (s : State) : Host.Outcome State Fault Refusal :=
  .next (onKey key endGap (s.arrive t))

/-! ### RELEASE_TIME (R92) -/

/-- A key sent to DAMP now (R92). -/
def dampKey (k : Key) (s : State) : State := s.setPhase k (.damp (gapEndNow s k))

/-- The release time of a key in HOLD (R92). -/
def reachRelease (k : Key) (s : State) : State :=
  match (s.key k).phase with
  | .hold n _ _ _ _ => if releaseDue s n then settling none (dampKey k) s else s
  | _ => s

/-- RELEASE_TIME (R92). -/
def execReleaseTime (t : Time) (key : Nat) (s : State) : Host.Outcome State Fault Refusal :=
  .next (onKey key reachRelease (s.arrive t))

end Sys2Proof.Machine
end

