-- ==== Sys2Proof/Machine/Voicing.lean ====
section
/-! DEFINITION. The voicing requests and the commit: VOICE_READ, VOICE_WRITE, VOICE_COMMIT,
COMMIT_PAGE_WRITTEN, COMMIT_ACK_TIMEOUT (08_hammer_sensing R160, R161; 11_host_port R203, R204). -/

namespace Sys2Proof.Machine

/-! ### VOICE_READ (R160) -/

/-- The data of a VOICE_READ: the 19 words of the record (R160). -/
def voicingData (r : VoicingRecord) : List Byte :=
  (List.range 19).flatMap fun j => field16 (recordWord r j).toNat

/-- VOICE_READ (R160). -/
def actVoiceRead (arguments : List Byte) (s : State) : Answer :=
  match keyOfNumber (argByte arguments 0) with
  | some k => answerOk s (voicingData (s.voice k))
  | none => refuse s .badArgument

/-- VOICE_READ (R160), code 2A. -/
def execVoiceRead (t : Time) (s : State) : Host.Outcome State Fault Refusal :=
  .next (serveRequest 0x2A false actVoiceRead (s.arrive t))

/-! ### VOICE_WRITE (R161) -/

/-- The record that the arguments of a VOICE_WRITE carry. -/
def argRecord (arguments : List Byte) : VoicingRecord := recordOfWords fun j => arg16 arguments (1 + 2 * j)

/-- VOICE_WRITE (R161). -/
def actVoiceWrite (arguments : List Byte) (s : State) : Answer :=
  match keyOfNumber (argByte arguments 0) with
  | none => refuse s .badArgument
  | some k =>
    if s.loader.commit.isSome then refuse s .busy
    else if (argRecord arguments).valid then answerOk (s.setVoice k (argRecord arguments)) []
    else refuse s .badArgument

/-- VOICE_WRITE (R161), code 2B. -/
def execVoiceWrite (t : Time) (s : State) : Host.Outcome State Fault Refusal :=
  .next (serveRequest 0x2B false actVoiceWrite (s.arrive t))

/-! ### VOICE_COMMIT (R203) -/

/-- The state with another image loader. -/
def State.setLoader (s : State) (l : ImageLoader) : State := { s with loader := l }

/-- The commit stops: IDLE, the outcome FAILED, the notice COMMIT_FAILED (R204). -/
def failCommit (wordReached : Nat) (s : State) : State :=
  (s.setLoader { s.loader with commit := none, lastCommit := .failed }).raise .commitFailed
    (field16 wordReached)

/-- A new commit: the copy of the settings and the voicing table, and its first page sent (R203). -/
def newCommit (s : State) : Commit where
  settings := s.settings
  voicing := s.voicing
  crc := imageCrc s.settings s.voicing
  page := 0
  cycleStart := s.clock
  wordReached := 0

/-- A commit begun (R203); one whose first page is not acknowledged when it is sent stops at once (R204,
log 8). -/
def beginCommit (acked : Bool) (s : State) : State :=
  if acked then s.setLoader { s.loader with commit := some (newCommit s) } else failCommit 0 s

/-- The service pin read at the execution of a request (R197). -/
def readPin (pin : Bool) (s : State) : State := { s with servicePin := pin }

/-- VOICE_COMMIT (R203). -/
def actVoiceCommit (pin acked : Bool) (_arguments : List Byte) (s : State) : Answer :=
  let sampled := readPin pin s
  if !pin then refuse sampled .notPermitted
  else if s.loader.commit.isSome then refuse sampled .busy
  else answerOk (beginCommit acked sampled) []

/-- VOICE_COMMIT (R203), code 2C. -/
def execVoiceCommit (t : Time) (pin acked : Bool) (s : State) : Host.Outcome State Fault Refusal :=
  .next (serveRequest 0x2C false (actVoiceCommit pin acked) (s.arrive t))

/-! ### COMMIT_PAGE_WRITTEN (R204) -/

/-- The commit finished: IDLE, the outcome DONE, the notice COMMIT_DONE (R204). -/
def finishCommit (s : State) : State :=
  (s.setLoader { s.loader with commit := none, lastCommit := .done }).raise .commitDone []

/-- The commit with its next page sent. -/
def Commit.next (c : Commit) (now : Time) : Commit :=
  { c with page := c.page + 1, cycleStart := now, wordReached := pageLastWord c.page }

/-- What follows the writing of a page: the end, the next page's write cycle, or the failure of a page
that is not acknowledged when it is sent (R204). -/
def nextPage (c : Commit) (acked : Bool) (s : State) : State :=
  if commitPages ≤ c.page + 1 then finishCommit s
  else if acked then
    s.setLoader { s.loader with commit := some (c.next s.clock) }
  else failCommit (pageLastWord c.page) s

/-- The write cycle of a page completes: the page has been taken (R204). -/
def completePage (acked : Bool) (s : State) : State :=
  match s.loader.commit with
  | none => s
  | some c => nextPage c acked (s.setLoader { s.loader with eeprom := writePage c s.loader.eeprom })

/-- COMMIT_PAGE_WRITTEN (R204). -/
def execCommitPageWritten (t : Time) (acked : Bool) (s : State) : Host.Outcome State Fault Refusal :=
  .next (completePage acked (s.arrive t))

/-! ### COMMIT_ACK_TIMEOUT (R204) -/

/-- 20 ms from the start of a page's write cycle without an acknowledgement (R204). -/
def timeOutCommit (s : State) : State :=
  match s.loader.commit with
  | none => s
  | some c => if reached s.clock (timePlus c.cycleStart 20000) then failCommit c.wordReached s else s

/-- COMMIT_ACK_TIMEOUT (R204). -/
def execCommitAckTimeout (t : Time) (s : State) : Host.Outcome State Fault Refusal :=
  .next (timeOutCommit (s.arrive t))

end Sys2Proof.Machine
end

