-- ==== Sys2Proof/Machine/Dispatch.lean ====
section
/-! DEFINITION. The one dispatch of the commands: one arm per constructor, each a direct call of its meaning. -/

namespace Sys2Proof.Machine

/-- The effect of a command on everything but the queue. -/
def exec (i : Instr) (s : State) : Host.Outcome State Fault Refusal :=
  match i with
  | .fullReset lines => Sys2Proof.Machine.execFullReset lines s
  | .imageLoadComplete t acked framed => Sys2Proof.Machine.execImageLoadComplete t acked framed s
  | .segmentArrival t lane bytes => Sys2Proof.Machine.execSegmentArrival t lane bytes s
  | .lineTimerExpiry t => Sys2Proof.Machine.execLineTimerExpiry t s
  | .strikeQueueHeadTimer t => Sys2Proof.Machine.execStrikeQueueHeadTimer t s
  | .strikeEndTimerExpiry t key => Sys2Proof.Machine.execStrikeEndTimerExpiry t key s
  | .gapEnd t key => Sys2Proof.Machine.execGapEnd t key s
  | .releaseTime t key => Sys2Proof.Machine.execReleaseTime t key s
  | .expressionStep t => Sys2Proof.Machine.execExpressionStep t s
  | .heatStep t => Sys2Proof.Machine.execHeatStep t s
  | .pedalStep t => Sys2Proof.Machine.execPedalStep t s
  | .pedalFault t pedal => Sys2Proof.Machine.execPedalFault t pedal s
  | .pedalEventDue t pedal => Sys2Proof.Machine.execPedalEventDue t pedal s
  | .hubReport t byte => Sys2Proof.Machine.execHubReport t byte s
  | .hubBurstEnd t => Sys2Proof.Machine.execHubBurstEnd t s
  | .cueEntryDue t => Sys2Proof.Machine.execCueEntryDue t s
  | .spiWriteTransaction t bytes => Sys2Proof.Machine.execSpiWriteTransaction t bytes s
  | .spiReadTransaction t phase => Sys2Proof.Machine.execSpiReadTransaction t phase s
  | .badRequest t => Sys2Proof.Machine.execBadRequest t s
  | .status t pin => Sys2Proof.Machine.execStatus t pin s
  | .timeRead t => Sys2Proof.Machine.execTimeRead t s
  | .configRead t => Sys2Proof.Machine.execConfigRead t s
  | .configWrite t pin => Sys2Proof.Machine.execConfigWrite t pin s
  | .performanceReset t => Sys2Proof.Machine.execPerformanceReset t s
  | .rollStart t => Sys2Proof.Machine.execRollStart t s
  | .rollStop t => Sys2Proof.Machine.execRollStop t s
  | .rollQuery t => Sys2Proof.Machine.execRollQuery t s
  | .apertureQuery t => Sys2Proof.Machine.execApertureQuery t s
  | .apertureClose t => Sys2Proof.Machine.execApertureClose t s
  | .exprSet t => Sys2Proof.Machine.execExprSet t s
  | .exprQuery t => Sys2Proof.Machine.execExprQuery t s
  | .playOpen t => Sys2Proof.Machine.execPlayOpen t s
  | .playClose t => Sys2Proof.Machine.execPlayClose t s
  | .playCancel t => Sys2Proof.Machine.execPlayCancel t s
  | .allOff t => Sys2Proof.Machine.execAllOff t s
  | .quietSet t => Sys2Proof.Machine.execQuietSet t s
  | .keyAmend t => Sys2Proof.Machine.execKeyAmend t s
  | .keyQuery t => Sys2Proof.Machine.execKeyQuery t s
  | .keyRetire t => Sys2Proof.Machine.execKeyRetire t s
  | .keyRestore t => Sys2Proof.Machine.execKeyRestore t s
  | .pedalSet t => Sys2Proof.Machine.execPedalSet t s
  | .pedalYield t => Sys2Proof.Machine.execPedalYield t s
  | .pedalQuery t => Sys2Proof.Machine.execPedalQuery t s
  | .pedalClearFault t => Sys2Proof.Machine.execPedalClearFault t s
  | .contextRead t => Sys2Proof.Machine.execContextRead t s
  | .contextWrite t => Sys2Proof.Machine.execContextWrite t s
  | .cuePush t => Sys2Proof.Machine.execCuePush t s
  | .cueFlush t => Sys2Proof.Machine.execCueFlush t s
  | .cueQuery t => Sys2Proof.Machine.execCueQuery t s
  | .voiceRead t => Sys2Proof.Machine.execVoiceRead t s
  | .voiceWrite t => Sys2Proof.Machine.execVoiceWrite t s
  | .voiceCommit t pin acked => Sys2Proof.Machine.execVoiceCommit t pin acked s
  | .commitPageWritten t acked => Sys2Proof.Machine.execCommitPageWritten t acked s
  | .commitAckTimeout t => Sys2Proof.Machine.execCommitAckTimeout t s
  | .hubByteReceived t byte => Sys2Proof.Machine.execHubByteReceived t byte s

end Sys2Proof.Machine
end

