-- ==== Sys2Proof/Safety.lean ====
section
/-! DEFINITION. What counts as a safe state and as a request answered, in the terms the statements use. -/

namespace Sys2Proof

/-- The clock value a command carries; FULL_RESET carries none. -/
def Instr.time : Instr → Option Time
  | .fullReset _ => none
  | .imageLoadComplete t _ _ => some t
  | .segmentArrival t _ _ => some t
  | .lineTimerExpiry t => some t
  | .strikeQueueHeadTimer t => some t
  | .strikeEndTimerExpiry t _ => some t
  | .gapEnd t _ => some t
  | .releaseTime t _ => some t
  | .expressionStep t => some t
  | .heatStep t => some t
  | .pedalStep t => some t
  | .pedalFault t _ => some t
  | .pedalEventDue t _ => some t
  | .hubReport t _ => some t
  | .hubBurstEnd t => some t
  | .cueEntryDue t => some t
  | .spiWriteTransaction t _ => some t
  | .spiReadTransaction t _ => some t
  | .badRequest t => some t
  | .status t _ => some t
  | .timeRead t => some t
  | .configRead t => some t
  | .configWrite t _ => some t
  | .performanceReset t => some t
  | .rollStart t => some t
  | .rollStop t => some t
  | .rollQuery t => some t
  | .apertureQuery t => some t
  | .apertureClose t => some t
  | .exprSet t => some t
  | .exprQuery t => some t
  | .playOpen t => some t
  | .playClose t => some t
  | .playCancel t => some t
  | .allOff t => some t
  | .quietSet t => some t
  | .keyAmend t => some t
  | .keyQuery t => some t
  | .keyRetire t => some t
  | .keyRestore t => some t
  | .pedalSet t => some t
  | .pedalYield t => some t
  | .pedalQuery t => some t
  | .pedalClearFault t => some t
  | .contextRead t => some t
  | .contextWrite t => some t
  | .cuePush t => some t
  | .cueFlush t => some t
  | .cueQuery t => some t
  | .voiceRead t => some t
  | .voiceWrite t => some t
  | .voiceCommit t _ _ => some t
  | .commitPageWritten t _ => some t
  | .commitAckTimeout t => some t
  | .hubByteReceived t _ => some t

/-- The request code of a command that executes a request (11, request code table). -/
def Instr.requestCode : Instr → Option Nat
  | .status _ _ => some 0x01
  | .timeRead _ => some 0x02
  | .configRead _ => some 0x03
  | .configWrite _ _ => some 0x04
  | .performanceReset _ => some 0x05
  | .rollStart _ => some 0x08
  | .rollStop _ => some 0x09
  | .rollQuery _ => some 0x0A
  | .apertureQuery _ => some 0x0C
  | .apertureClose _ => some 0x0D
  | .exprSet _ => some 0x10
  | .exprQuery _ => some 0x11
  | .playOpen _ => some 0x14
  | .playClose _ => some 0x15
  | .playCancel _ => some 0x16
  | .allOff _ => some 0x17
  | .quietSet _ => some 0x18
  | .keyAmend _ => some 0x19
  | .keyQuery _ => some 0x1A
  | .keyRetire _ => some 0x1C
  | .keyRestore _ => some 0x1D
  | .pedalSet _ => some 0x20
  | .pedalYield _ => some 0x21
  | .pedalQuery _ => some 0x22
  | .pedalClearFault _ => some 0x23
  | .contextRead _ => some 0x24
  | .contextWrite _ => some 0x25
  | .cuePush _ => some 0x26
  | .cueFlush _ => some 0x27
  | .cueQuery _ => some 0x28
  | .voiceRead _ => some 0x2A
  | .voiceWrite _ => some 0x2B
  | .voiceCommit _ _ _ => some 0x2C
  | _ => none

namespace Machine

/-! ### Requests -/

/-- A request stands at the head of the intake with room for its answer, and the load is complete (R195). -/
def RequestAtHead (s : State) (code : Nat) (tag : Byte) (arguments : List Byte) : Prop :=
  s.loader.ready = true ∧ s.port.responses.length < 16 ∧
    s.port.intake.head? = some (requestFrame code tag arguments)

/-- The port once a request has been answered: its frame has left the intake and its one response stands at
the tail of the response queue (R194, R195). -/
def answeredPort (p : HostPort) (code : Nat) (tag : Byte) (result : Result) (data : List Byte) : HostPort :=
  { p with
    intake := p.intake.tail
    responses := p.responses ++
      [{ code := byteOf code, tag := tag, result := result, overflow := p.overflowPending, data := data }]
    overflowPending := false }

/-! ### Segments -/

/-- A burst on a lane that passes the checks of R1 to R5 with a clean header. -/
def GoodSegment (lane : Fin 4) (bytes : List Byte) (header : BitVec 24) : Prop :=
  bytes.length = 70 ∧ checkHeader (segmentHeader bytes) (bytes.getD 3 0) = .clean header ∧
    header.extractLsb' 18 6 = 0b010110#6 ∧ (header.extractLsb' 16 2).toNat = lane.val ∧
    (crc16 ((bytes.drop 4).take 64)).toNat = valueOf (bytes.drop 68)

/-- The port takes segments on a lane: the load is complete, the lane's burst is not ignored, and its
receive buffer is empty (R1, R16). -/
def LaneReady (s : State) (lane : Fin 4) : Prop :=
  s.loader.ready = true ∧ s.scan.ignored.getLsbD lane.val = false ∧ s.scan.buffers[lane] = []

/-- The line number of a header: its 16 low bits (01_scan_link, segment layout). -/
def headerLine (header : BitVec 24) : LineNo := header.extractLsb' 0 16

/-- The 512 pixels of a burst's payload. -/
def burstPixels (bytes : List Byte) : LanePixels := BitVec.ofNat 512 (valueOf ((bytes.drop 4).take 64))

/-! ### Withdrawal -/

/-- What the withdrawal of a source leaves of a key, but for the examination of the head (R106): a key
with another owner is as it was unless it waits for launch. -/
def WithdrawnKey (source : Source) (a s' : State) (k : Key) : Prop :=
  (ownedBy source (a.key k).phase = true →
    (∀ n v, (a.key k).phase = .pending n v → (s'.key k).phase = .idle) ∧
    (∀ n v l e t, (a.key k).phase = .strike n v l e t none →
      (s'.key k).phase = .strike { n with release := some a.clock } v l e t none) ∧
    (∀ n v l e t m, (a.key k).phase = .strike n v l e t (some m) →
      (s'.key k).phase = .strike n v l e t none) ∧
    (∀ n v l d start, (a.key k).phase = .hold n v l d start →
      (s'.key k).phase = .damp (timePlus a.clock (1000 * ((a.voice k).repeatGap : Int)))) ∧
    ∀ m g, (a.key k).phase = .waiting m g → (s'.key k).phase = .damp g) ∧
  (ownedBy source (a.key k).phase = false → isPending (a.key k).phase = false → s'.key k = a.key k)

/-- What a departure from LOCKED leaves of the roll (R29, R31, R32): every aperture EMPTY with its counters kept,
the line timer stopped, the roll's keys and pedals withdrawn, and all else but the tracker, the half contexts
and the notices as it was. -/
def RollLeft (a s' : State) : Prop :=
  (∀ c : Channel, s'.apertures.records[c] = { blind := false, life := .empty }) ∧
  s'.apertures.specks = a.apertures.specks ∧ s'.apertures.notesMasked = a.apertures.notesMasked ∧
  s'.apertures.notesOutOfRange = a.apertures.notesOutOfRange ∧
  (∀ k : Key, WithdrawnKey .roll a s' k) ∧
  (∀ p : Pedal, s'.pedal p =
    if (a.pedal p).owner = .roll then { a.pedal p with events := [], target := 0 } else a.pedal p) ∧
  s'.scan = { a.scan with lineTimer := none } ∧ s'.clock = a.clock ∧ s'.settings = a.settings ∧
  s'.contexts = a.contexts ∧ s'.voicing = a.voicing ∧ s'.heat = a.heat ∧ s'.hub = a.hub ∧ s'.cue = a.cue ∧
  s'.loader = a.loader ∧ s'.quiet = a.quiet ∧ s'.expression.nextStep = a.expression.nextStep

/-- The state after an entry to LOST with a reason's number and a line (R29). -/
def RollLost (reason : Byte) (line : LineNo) (a s' : State) : Prop :=
  RollLeft a s' ∧ s'.tracker = { a.tracker with mode := .lost, lockCount := 0 } ∧
  (∀ h : Half, s'.half h = { a.half h with latch := none }) ∧
  s'.port = { a.port with notices := a.port.notices ++
    [{ kind := .trackLost, lost := false, time := a.clock, fields := reason :: fieldLine line }] }

/-! ### Events of the aperture table -/

/-- A control channel's half and its place within its side's group: STEP_UP 0, STEP_DOWN 1, CRESC_SLOW 2,
CRESC_FAST 3, ACCENT 4, SFORZANDO 5 (R50). -/
def ControlChannel (c : Channel) (h : Half) (place : Nat) : Prop :=
  (c.val < 6 ∧ h = .bass ∧ place = c.val) ∨ (95 ≤ c.val ∧ c.val < 101 ∧ h = .treble ∧ place = c.val - 95)

/-- What a confirmation or a close of a control channel's aperture leaves of its half's context (R60 to R63);
`step` is STEP_SIZE. -/
def ControlTaken (step place : Nat) (confirmed : Bool) (c c' : HalfContext) : Prop :=
  match place with
  | 0 => c' =
    if confirmed then
      { c with
        base := min 1023 (c.base + step)
        effective := if c.crescendo = .none then min 16368 (c.effective + 16 * step) else c.effective }
    else c
  | 1 => c' =
    if confirmed then
      { c with
        base := min 1023 (c.base - step)
        effective := if c.crescendo = .none then min 16368 (c.effective - 16 * step) else c.effective }
    else c
  | 2 => c' = { c with
      crescendo := match confirmed, c.crescendo with
        | true, .none => .slow
        | true, .slow => .slow
        | true, .fast => .both
        | true, .both => .both
        | false, .none => .none
        | false, .slow => .none
        | false, .fast => .fast
        | false, .both => .fast }
  | 3 => c' = { c with
      crescendo := match confirmed, c.crescendo with
        | true, .none => .fast
        | true, .slow => .both
        | true, .fast => .fast
        | true, .both => .both
        | false, .none => .none
        | false, .slow => .slow
        | false, .fast => .none
        | false, .both => .slow }
  | 4 => c' = { c with accent := confirmed }
  | _ => c' = { c with sforzando := confirmed }

/-- What a roll pedal event leaves of a pedal (R165 to R167): dropped by a pedal that CUE owns or that is in
FAULT; else it stands in the queue behind the entries that are not later, in place of the last of a full queue,
and the entries at the head that are due have been applied. -/
def PedalEventTaken (now : Time) (e : PedalEvent) (r r' : PedalRecord) : Prop :=
  (r.owner = .cue ∨ r.mode = .fault → r' = r) ∧
  (r.owner = .roll → r.mode ≠ .fault → ∀ front back gone later : List PedalEvent,
    (if r.events.length < 8 then r.events else r.events.take 7) = front ++ back →
    (∀ x ∈ front, clockDiff x.time e.time ≤ 0) →
    (∀ x, back.head? = some x → 0 < clockDiff x.time e.time) →
    front ++ [e] ++ back = gone ++ later → (∀ x ∈ gone, reached now x.time) →
    (∀ x, later.head? = some x → ¬ reached now x.time) →
    r' = { r with events := later, target := (gone.getLast?.map PedalEvent.target).getD r.target })

/-- The level of a roll note of a half with an onset line and an accent field, and the chord latch it leaves
(R70 to R72). -/
def RollLevel (s : State) (h : Half) (onset : LineNo) (accent : Bool) (level : Nat)
    (latch : Option ChordLatch) : Prop :=
  ∃ chord : Nat,
    (s.setting .chordWindow = 0 → chord = s.output h ∧ latch = (s.half h).latch) ∧
    (0 < s.setting .chordWindow →
      (∀ l, (s.half h).latch = some l → (onset - l.start).toNat ≤ s.setting .chordWindow →
        chord = l.level ∧ latch = some l) ∧
      ((∀ l, (s.half h).latch = some l → s.setting .chordWindow < (onset - l.start).toNat) →
        chord = s.output h ∧ latch = some { start := onset, level := s.output h })) ∧
    level = min 1023 (chord + if accent then s.setting .accentBoost else 0) * s.contexts.roll.levelScale / 256

/-- What a matching close leaves of a phase: the release time on the note that gives the key its owner, and a
key in HOLD whose release time has come in DAMP (R88). -/
def ReleaseStored (now gapEnd release : Time) (p p' : KeyPhase) : Prop :=
  (∀ n v, p = .pending n v → p' = .pending { n with release := some release } v) ∧
  (∀ n v l e t, p = .strike n v l e t none → p' = .strike { n with release := some release } v l e t none) ∧
  (∀ n v l e t m, p = .strike n v l e t (some m) →
    p' = .strike n v l e t (some { m with release := some release })) ∧
  (∀ n v l d start, p = .hold n v l d start → ¬ reached now release →
    p' = .hold { n with release := some release } v l d start) ∧
  (∀ n v l d start, p = .hold n v l d start → reached now release → p' = .damp gapEnd) ∧
  ∀ m g, p = .waiting m g → p' = .waiting { m with release := some release } g

/-! ### The completion of the load -/

/-- What the completion of the image load leaves of the blocks: each at its full reset values with the settings
just taken, the three step timers running (R202), the source contexts and the clock kept. That a hub burst which
runs across the completion is ignored is log 20, the last line taken log 11, the moment of the first step log
21. -/
def BlocksStarted (framed : LaneSet) (a s' : State) : Prop :=
  s'.clock = a.clock ∧ s'.servicePin = a.servicePin ∧ s'.contexts = a.contexts ∧ s'.pending = a.pending ∧
  s'.scan = { State.reset.scan with ignored := framed } ∧
  s'.tracker = { State.reset.tracker with
    working := { edgeRun := s'.setting .edgeRun, nominalWidth := s'.setting .nominalWidth
                 widthTol := s'.setting .widthTol, spanRatio := s'.setting .spanRatio } } ∧
  s'.apertures = State.reset.apertures ∧ s'.keys = State.reset.keys ∧ s'.quiet = false ∧
  s'.queue = State.reset.queue ∧ s'.cue = State.reset.cue ∧
  s'.expression = { bass := HalfContext.atReset (s'.setting .resetLevel)
                    treble := HalfContext.atReset (s'.setting .resetLevel), nextStep := some (a.clock + 1000) } ∧
  s'.heat = { State.reset.heat with
    warn := s'.setting .heatWarn, max := s'.setting .heatMax, nextStep := some (a.clock + 1000) } ∧
  s'.hub = { State.reset.hub with ignoring := a.hub.ignoring } ∧
  s'.pedals = { State.reset.pedals with nextStep := some (a.clock + 1000) }

/-! ### Cue entries -/

/-- The 7 bytes of an entry in a CUE_PUSH frame with a cue id, whatever the bits and bytes that its kind does
not use (11, after the request code table). -/
def EntryBytes (cueId : Byte) (e : CueEntry) (bytes : List Byte) : Prop :=
  ∃ (w : Nat) (n : Byte), bytes = field16 w ++ [n] ++ fieldTime e.time ∧
    match e with
    | .on key id level _ => w < 16384 ∧ id = cueId ∧ n = byteOf (keyNumber key) ∧
        (w < 8192 ∧ level = .given (w % 1024) ∨ 8192 ≤ w ∧ level = .follow)
    | .off key id _ => 16384 ≤ w ∧ w < 32768 ∧ id = cueId ∧
        (key = none ∧ n = 0 ∨ ∃ k, key = some k ∧ n = byteOf (keyNumber k))
    | .pedal p position _ => 32768 ≤ w ∧ w < 49152 ∧ n = byteOf (pedalNumber p) ∧ position = w % 1024
    | .endPhrase _ => 49152 ≤ w ∧ w < 65536

/-- The 7 bytes of an entry with a field outside its range: the key of an ON or OFF entry, the pedal of a PEDAL
entry (R182, R183). -/
def EntryOutOfRange (bytes : List Byte) : Prop :=
  ∃ (w : Nat) (n : Byte) (t : Time), bytes = field16 w ++ [n] ++ fieldTime t ∧
    (w < 16384 ∧ (n = 0 ∨ 88 < n.toNat) ∨ 16384 ≤ w ∧ w < 32768 ∧ 88 < n.toNat ∨
      32768 ≤ w ∧ w < 49152 ∧ 2 ≤ n.toNat)

/-- The state `b` that the application of a cue entry leaves of a state `a` whose queue it has left, before the
low-water test and the test for an underrun (R185, R186, R172): all cases of END, PEDAL and of OFF when no head
waits, a dropped ON, and an ON that an IDLE, a HOLD or a DAMP key takes. -/
def CueApplied (e : CueEntry) (a b : State) : Prop :=
  match e with
  | .endPhrase _ => b = { a with cue := { a.cue with phraseOpen := false } }
  | .pedal p position _ =>
    ((a.pedal p).mode ≠ .fault ∧
        ((a.pedal p).owner = .cue ∨ a.contexts.roll.priority ≤ a.contexts.cue.priority) ∧
        b = a.setPedal p { a.pedal p with owner := .cue, events := [], target := position }) ∨
      (((a.pedal p).mode = .fault ∨
          ((a.pedal p).owner = .roll ∧ a.contexts.cue.priority < a.contexts.roll.priority)) ∧
        b = { a with cue := { a.cue with dropped := min 65535 (a.cue.dropped + 1) } })
  | .on key cueId level time =>
    ∃ (k : Key) (stored : Nat), k = transposedKey a.contexts.cue (keyNumber key) ∧
      (level = .given stored ∨
        level = .follow ∧ stored = a.output (if keyNumber k ≤ a.setting .splitKey then .bass else .treble)) ∧
      (((a.contexts.cue.enabled = false ∨ keyNumber k < a.contexts.cue.keyLow ∨ a.contexts.cue.keyHigh < keyNumber k ∨
            isRetired (a.key k).phase = true ∨
            (∃ o, a.owner k = some o ∧ a.contexts.cue.priority < (a.context o.source).priority)) ∧
          b = { a with cue := { a.cue with phraseOpen := true, dropped := min 65535 (a.cue.dropped + 1) } }) ∨
        (a.contexts.cue.enabled = true ∧ a.contexts.cue.keyLow ≤ keyNumber k ∧ keyNumber k ≤ a.contexts.cue.keyHigh ∧
          ∃ (n : Note) (noteLevel : Nat),
            n = { claimant := { source := .cue, id := cueId }, sound := time, level := noteLevel, release := none } ∧
            ((∃ v, noteLevel = min 1023 (stored * a.contexts.cue.levelScale / 256) ∧ (a.key k).phase = .idle ∧
                v = strikeValuesOf (a.setting .velMin) (a.setting .velMax) (a.voice k) a.pedals.shift.position
                  noteLevel time ∧
                ¬ reached a.clock v.planned ∧ a.queue.entries = [] ∧ a.queue.status = .idle ∧
                b = { a with
                  keys := a.keys.set k { a.key k with phase := .pending n v }
                  queue := { entries := [{ key := k, planned := v.planned }], status := .timed }
                  cue := { a.cue with phraseOpen := true } }) ∨
              (∃ gapEnd, noteLevel = stored ∧ a.queue.status ≠ .waiting ∧
                (∀ x, a.queue.entries.head? = some x → x.key ≠ k) ∧
                ((a.key k).phase = .damp gapEnd ∨
                  gapEnd = timePlus a.clock (1000 * ((a.voice k).repeatGap : Int)) ∧
                    ∃ n0 v l d start, (a.key k).phase = .hold n0 v l d start ∧
                      (a.context n0.claimant.source).priority ≤ a.contexts.cue.priority) ∧
                b = { a with
                  keys := a.keys.set k { a.key k with phase := .waiting n gapEnd }
                  cue := { a.cue with phraseOpen := true } }))))
  | .off key cueId time =>
    a.queue.status ≠ .waiting ∧ b = { a with keys := b.keys } ∧
      ∀ k : Key,
        (a.owner k ≠ some { source := .cue, id := cueId } ∨
            (∃ key0, key = some key0 ∧ k ≠ transposedKey a.contexts.cue (keyNumber key0)) → b.key k = a.key k) ∧
        (a.owner k = some { source := .cue, id := cueId } →
          (∀ key0, key = some key0 → k = transposedKey a.contexts.cue (keyNumber key0)) →
          b.key k = { a.key k with phase := (b.key k).phase } ∧
          ReleaseStored a.clock (timePlus a.clock (1000 * ((a.voice k).repeatGap : Int))) time
            (a.key k).phase (b.key k).phase)

/-! ### Safe states -/

/-- A phase whose note was launched NORMAL. -/
def launchedNormal : KeyPhase → Bool
  | .strike _ _ l _ _ _ => decide (l.mode = .normal)
  | .hold _ _ l _ _ => decide (l.mode = .normal)
  | _ => false

/-- The pool is not overdrawn (R129), and no note launched NORMAL stands on a key that is MUTE or under
QUIET (R99, R100). -/
def PoolSafe (s : State) : Prop :=
  claimSum s ≤ s.setting .poolCapacity ∧
    ∀ k : Key, (s.quiet = true ∨ (s.key k).flags.mute = true) → launchedNormal (s.key k).phase = false

/-- Whether a phase is HOLD. -/
def isHold : KeyPhase → Bool
  | .hold _ _ _ _ _ => true
  | _ => false

/-- No key is in HOLD with a figure at or above the working HEAT_MAX (R140). -/
def HeatSafe (s : State) : Prop :=
  ∀ k : Key, isHold (s.key k).phase = true → s.heatOf k < s.heat.max

/-- The strike queue holds exactly the keys in PENDING, each once, with their planned launches (R117). -/
def QueueSafe (s : State) : Prop :=
  (s.queue.entries.map QueueEntry.key).Nodup ∧
    (∀ e ∈ s.queue.entries, ∃ n v, (s.key e.key).phase = .pending n v ∧ e.planned = v.planned) ∧
    ∀ k : Key, isPending (s.key k).phase = true → k ∈ s.queue.entries.map QueueEntry.key

/-- Every voicing record keeps the ranges and the order of its curves (R152). -/
def VoicingSafe (s : State) : Prop := ∀ k : Key, (s.voice k).valid = true

/-- Every setting lies in its range, and the two pairs keep their order (R116, R142, R199). -/
def SettingsSafe (s : State) : Prop :=
  (∀ x : Setting, x.inRange (s.setting x) = true) ∧ s.setting .velMin < s.setting .velMax ∧
    s.setting .heatWarn < s.setting .heatMax

/-- Both context blocks keep their ranges (R179). -/
def ContextsSafe (s : State) : Prop := s.contexts.roll.valid = true ∧ s.contexts.cue.valid = true

/-- A pedal record keeps its ranges, and drives nothing in IDLE and FAULT (R163, R165). -/
def pedalSafe (r : PedalRecord) : Prop :=
  (r.mode = .idle → r.drive = 0) ∧ (r.mode = .fault → r.drive = 0 ∧ r.events = []) ∧
    r.target ≤ 1023 ∧ r.position ≤ 1023 ∧ r.drive ≤ 1023 ∧ r.events.length ≤ 8 ∧
    ∀ e ∈ r.events, e.target ≤ 1023

/-- Both pedals are safe (R163), under settings in their ranges and cue queue positions in theirs
(R182). -/
def PedalsSafe (s : State) : Prop :=
  SettingsSafe s ∧ pedalSafe s.pedals.sustain ∧ pedalSafe s.pedals.shift ∧
    ∀ p position time, CueEntry.pedal p position time ∈ s.cue.entries → position ≤ 1023

/-- A half context keeps its ranges (R57). -/
def halfSafe (c : HalfContext) : Prop :=
  c.base ≤ 1023 ∧ c.effective ≤ 16368 ∧ c.fixedLevel ≤ 1023 ∧ -1023 ≤ c.offset ∧ c.offset ≤ 1023 ∧
    ∀ l, c.latch = some l → l.level ≤ 1023

/-- Both half contexts are safe (R57), under settings in their ranges. -/
def ExpressionSafe (s : State) : Prop :=
  SettingsSafe s ∧ halfSafe s.expression.bass ∧ halfSafe s.expression.treble

/-- The times of a list never fall from head to tail, by the clock's signed difference (R182). -/
def timesOrdered : List CueEntry → Prop
  | [] => True
  | [_] => True
  | a :: b :: es => 0 ≤ clockDiff b.time a.time ∧ timesOrdered (b :: es)

/-- The cue queue holds at most 256 entries in order of time, and the order reference is the time of its
tail (R182, R183). -/
def CueSafe (s : State) : Prop :=
  s.cue.entries.length ≤ 256 ∧ timesOrdered s.cue.entries ∧
    ∀ e, s.cue.entries.getLast? = some e → s.cue.orderRef = some e.time

/-- The three queues of the port keep their bounds (R194 to R196). -/
def PortSafe (s : State) : Prop :=
  s.port.intake.length ≤ 8 ∧ s.port.responses.length ≤ 16 ∧ s.port.notices.length ≤ 32

/-- An aperture is in a state other than EMPTY only while the tracker is LOCKED (R37). -/
def AperturesSafe (s : State) : Prop :=
  s.tracker.mode ≠ .locked → ∀ c : Channel, (s.apertures.records[c]).life = .empty

/-- The EEPROM's cells keep their canonical form. -/
def EepromSafe (s : State) : Prop := Memory.wf s.loader.eeprom = true

/-- The note that gives a key its owner (R79). -/
def owningNote : KeyPhase → Option Note
  | .pending n _ => some n
  | .strike n _ _ _ _ none => some n
  | .strike _ _ _ _ _ (some m) => some m
  | .hold n _ _ _ _ => some n
  | .waiting m _ => some m
  | _ => none

/-- Whether an aperture's life is OPEN or BRIDGING with a mapped key. -/
def openOn (k : Key) : ApertureLife → Bool
  | .opened _ _ m => decide (m = some (.key k))
  | .bridging _ _ m _ _ _ => decide (m = some (.key k))
  | _ => false

/-- A displaced note carries a release time (R84). -/
def displacedReleased : KeyPhase → Bool
  | .strike n _ _ _ _ (some _) => n.release.isSome
  | _ => true

/-- Every note that gives its key to a roll channel either has that channel's aperture in OPEN or BRIDGING
with the key mapped, or carries a release time (R93), and so does every note displaced in its strike. -/
def RollNotesSafe (s : State) : Prop :=
  ∀ k : Key, displacedReleased (s.key k).phase = true ∧
    ∀ n, owningNote (s.key k).phase = some n → n.claimant.source = .roll → n.release = none →
      ∃ c : Channel, n.claimant = rollOwner c ∧ openOn k (s.apertures.records[c]).life = true

end Machine

end Sys2Proof
end

