-- ==== Sys2Proof/Certificates/Slice0/Obligations.lean ====
section
/-! DEFINITION. The statements for the provers. In each, `s.arrive t` is what stands when the clock has come
to `t` (log 1 and 4), and `exec c s` answers the command's next state. -/

open Sys2Proof Sys2Proof.Machine

/-! ### The step, the clock, the hold timeout -/

/-- One step of a state with a command at the front of its queue is that command on the state with the queue's
rest. -/
def Obligations.StepTakesFrontCommand : Prop :=
  ∀ (c : Instr) (rest : List Instr) (s : State), s.pending = c :: rest →
    step s = exec c { s with pending := rest }

/-- Every command answers a next state and leaves the queue of commands alone. That a command carries its
time, that the clock stands at that time afterwards, and that a command for an event that is not due
answers a next state too, are the model's choices (log 1 and 2). -/
def Obligations.EveryCommandCompletes : Prop :=
  ∀ (c : Instr) (s : State), ∃ s', exec c s = .next s' ∧ s'.pending = s.pending ∧
    ∀ t, c.time = some t → s'.clock = t

/-- With no KEY_FIND at the head of the intake, the clock coming to `t` changes nothing else when no hold
timeout comes on the way; a key in HOLD whose HOLD_TIMEOUT comes before `t`, the only one in HOLD, is in
DAMP when the clock has come to `t`, and its gap end and the notice KEY_HOLD_TIMEOUT carry the moment of
the timeout (R94a). A KEY_FIND at the head is answered before the clock moves (R105a, R195). That both
come inside the next command, and the timeout before the command's own effect, is the model's choice (log
3 and 4). -/
def Obligations.ClockArrival : Prop :=
  (∀ (s : State) (t : Time), (∀ f, s.port.intake.head? = some f → frameCode f ≠ 0x1B) →
     (∀ (k : Key) (n : Note) (v : StrikeValues) (l : Launch) (d : Nat) (start : Time),
       (s.key k).phase = .hold n v l d start → s.setting .holdTimeout ≠ 0 → (s.key k).flags.holdExempt = false →
         ¬ reached s.clock (timePlus start (1000000 * (s.setting .holdTimeout : Int))) ∧
           (t - s.clock).toNat < (timePlus start (1000000 * (s.setting .holdTimeout : Int)) - s.clock).toNat) →
     s.arrive t = { s with clock := t }) ∧
  (∀ (s : State) (t due : Time) (k : Key) (n : Note) (v : StrikeValues) (l : Launch) (d : Nat) (start : Time),
     (∀ f, s.port.intake.head? = some f → frameCode f ≠ 0x1B) →
     (s.key k).phase = .hold n v l d start →
     s.setting .holdTimeout ≠ 0 → (s.key k).flags.holdExempt = false →
     due = timePlus start (1000000 * (s.setting .holdTimeout : Int)) →
     ¬ reached s.clock due → (due - s.clock).toNat ≤ (t - s.clock).toNat →
     (∀ j : Key, j ≠ k → isHold (s.key j).phase = false) →
     s.queue.status ≠ .waiting → s.port.notices.length < 32 →
     s.arrive t =
       { s with
         clock := t
         keys := s.keys.set k { s.key k with
           phase := .damp (timePlus due (1000 * ((s.voice k).repeatGap : Int))) }
         port := { s.port with notices := s.port.notices ++
           [{ kind := .keyHoldTimeout, lost := false, time := due
              fields := [byteOf (keyNumber k)] ++ fieldOwner (some n.claimant) ++ fieldTime start }] } }) ∧
  (∀ (s : State) (t : Time) (tag cueId : Byte), RequestAtHead s 0x1B tag [cueId] →
     s.arrive t = State.arrive { s with
       port := answeredPort s.port 0x1B tag .ok
         (fieldList ((allKeys.filter fun k =>
           decide (s.owner k = some { source := .cue, id := cueId })).map fun k => [byteOf (keyNumber k)])) } t)

/-- With no command waiting, a KEY_FIND at the head of the intake is answered OK with the keys of the cue id
in increasing order, and nothing else changes (R105a; executed by the idle step, log 3). -/
def Obligations.IdleStepAnswersKeyFind : Prop :=
  ∀ (s : State) (tag cueId : Byte), s.pending = [] → RequestAtHead s 0x1B tag [cueId] →
    step s = .next { s with
      port := answeredPort s.port 0x1B tag .ok
        (fieldList ((allKeys.filter fun k =>
          decide (s.owner k = some { source := .cue, id := cueId })).map fun k => [byteOf (keyNumber k)])) }

/-! ### Requests in general (R195) -/

/-- A good request that is taken with the load complete is answered once: its frame leaves the intake, and one
response with its code and tag, and the flag INTAKE_OVERFLOW when that was owed, joins the tail of the
response queue (R194, R195). While the load runs, every good request but STATUS is answered NOT_READY and
nothing else happens (R195, R200). -/
def Obligations.RequestsAnsweredOnce : Prop :=
  (∀ (c : Instr) (t : Time) (code : Nat) (f : List Byte) (s : State),
     c.time = some t → c.requestCode = some code →
     (s.arrive t).loader.ready = true → (s.arrive t).port.responses.length < 16 →
     (s.arrive t).port.intake.head? = some f → frameGood f = true → (frameCode f).toNat = code →
     ∃ s' r, exec c s = .next s' ∧ s'.port.intake = (s.arrive t).port.intake.tail ∧
       s'.port.responses = (s.arrive t).port.responses ++ [r] ∧ r.code = frameCode f ∧ r.tag = frameTag f ∧
       r.overflow = (s.arrive t).port.overflowPending ∧ s'.port.overflowPending = false) ∧
  (∀ (c : Instr) (t : Time) (code : Nat) (f : List Byte) (s : State),
     c.time = some t → c.requestCode = some code → code ≠ 0x01 →
     (s.arrive t).loader.ready = false → (s.arrive t).port.responses.length < 16 →
     (s.arrive t).port.intake.head? = some f → frameGood f = true → (frameCode f).toNat = code →
     exec c s = .next { s.arrive t with
       port := answeredPort (s.arrive t).port code (frameTag f) .notReady [] })

/-- A request that is not answered OK changes nothing but the port, where it is answered with no data, and the
sampled level of the service pin. CUE_PUSH is the one request that may act and be refused (R183). -/
def Obligations.RefusedRequestsChangeNothing : Prop :=
  ∀ (c : Instr) (t : Time) (code : Nat) (s s' : State) (r : Response),
    c.time = some t → c.requestCode = some code → code ≠ 0x26 → exec c s = .next s' →
    s'.port.responses = (s.arrive t).port.responses ++ [r] → r.result ≠ .ok →
    r.data = [] ∧ s' = { s.arrive t with
      servicePin := s'.servicePin
      port := { (s.arrive t).port with
        intake := (s.arrive t).port.intake.tail
        responses := (s.arrive t).port.responses ++ [r]
        overflowPending := false } }

/-- A frame that fails the first test of R195 is answered BAD_REQUEST with its code and tag as received, or 00
for a byte it did not carry, in every load state, and nothing else happens. -/
def Obligations.BadFramesAnsweredBadRequest : Prop :=
  ∀ (t : Time) (f : List Byte) (s : State),
    (s.arrive t).port.responses.length < 16 → (s.arrive t).port.intake.head? = some f →
    (f.length < 3 ∨ 64 < f.length ∨ (f.getD 0 0).toNat ≠ f.length ∨
      argumentsAllowed (f.getD 1 0).toNat (f.length - 3) = false) →
    exec (.badRequest t) s = .next { s.arrive t with
      port := { (s.arrive t).port with
        intake := (s.arrive t).port.intake.tail
        responses := (s.arrive t).port.responses ++
          [{ code := f.getD 1 0, tag := f.getD 2 0, result := .badRequest
             overflow := (s.arrive t).port.overflowPending, data := [] }]
        overflowPending := false } }

/-! ### Who writes what -/

/-- The settings and the source contexts change only by CONFIG_WRITE, CONTEXT_WRITE, the completion of the
load and the full reset; the voicing table only by hammer reports, VOICE_WRITE, the load and the full
reset; the heat figures only by a heat step, the load and the full reset; the image only by the commit's
own commands and the full reset (R181, R199, R202, R206, R153, R138, R143, R203). -/
def Obligations.OnlyNamedCommandsChangeTables : Prop :=
  (∀ (c : Instr) (s s' : State), exec c s = .next s' →
     match c with
     | .fullReset _ => True
     | .imageLoadComplete _ _ _ => s'.contexts = s.contexts
     | .configWrite _ _ => s'.contexts = s.contexts
     | .contextWrite _ => s'.settings = s.settings
     | _ => s'.settings = s.settings ∧ s'.contexts = s.contexts) ∧
  (∀ (c : Instr) (s s' : State), exec c s = .next s' →
     match c with
     | .fullReset _ => True
     | .imageLoadComplete _ _ _ => True
     | .voiceWrite _ => True
     | .hubReport _ _ => True
     | .hubByteReceived _ _ => True
     | _ => s'.voicing = s.voicing) ∧
  (∀ (c : Instr) (s s' : State), exec c s = .next s' →
     match c with
     | .fullReset _ => True
     | .imageLoadComplete _ _ _ => True
     | .heatStep _ => True
     | _ => s'.heat = s.heat) ∧
  (∀ (c : Instr) (s s' : State), exec c s = .next s' →
     match c with
     | .fullReset _ => True
     | .imageLoadComplete _ _ _ => s'.loader.eeprom = s.loader.eeprom
     | .voiceCommit _ _ _ => s'.loader.eeprom = s.loader.eeprom
     | .commitPageWritten _ _ => True
     | .commitAckTimeout _ => s'.loader.eeprom = s.loader.eeprom
     | _ => s'.loader = s.loader)

/-! ### Invariants every step keeps -/

/-- Right after reset every invariant below holds. The settings, the heat thresholds and the half contexts
before the load, which these invariants read, are the model's choices (log 11), and so is the empty EEPROM
(log 7). -/
def Obligations.ResetIsSafe : Prop :=
  PoolSafe State.reset ∧ HeatSafe State.reset ∧ QueueSafe State.reset ∧ VoicingSafe State.reset ∧
    PedalsSafe State.reset ∧ ExpressionSafe State.reset ∧ ContextsSafe State.reset ∧ CueSafe State.reset ∧
    PortSafe State.reset ∧ AperturesSafe State.reset ∧ RollNotesSafe State.reset ∧ EepromSafe State.reset

/-- The sum of all claims on the drive pool never exceeds POOL_CAPACITY (R129), and no note launched NORMAL
stands on a key that is MUTE or under QUIET (R99, R100): every step keeps both. -/
def Obligations.PoolNeverOverdrawn : Prop :=
  ∀ s s' : State, PoolSafe s → step s = .next s' → PoolSafe s'

/-- No step leaves a key in HOLD with a heat figure at or above the working HEAT_MAX (R140). -/
def Obligations.NoHotKeyHeld : Prop :=
  ∀ s s' : State, HeatSafe s → step s = .next s' → HeatSafe s'

/-- Every step keeps the strike queue holding exactly the keys in PENDING, each once (R117). -/
def Obligations.QueueHoldsPendingKeys : Prop :=
  ∀ s s' : State, QueueSafe s → step s = .next s' → QueueSafe s'

/-- Every step keeps the ranges and the order of every voicing record (R152), learning included (R155, R157). -/
def Obligations.VoicingKeepsOrder : Prop :=
  ∀ s s' : State, VoicingSafe s → step s = .next s' → VoicingSafe s'

/-- Every step keeps the settings in their ranges and the pairs in order, both pedals' ranges with drive 0 in
IDLE and FAULT (R163, R165, R116, R142), the ranges of both half contexts and so every output level within
0..1023 (R57, R66), both source contexts valid (R179), and the EEPROM's cells in their canonical form.
That FULL_RESET leaves the settings and the half contexts in their ranges rests on their values before the
load, which are the model's choice (log 11). -/
def Obligations.RangesKept : Prop :=
  (∀ s s' : State, PedalsSafe s → step s = .next s' → PedalsSafe s') ∧
  (∀ s s' : State, ExpressionSafe s → step s = .next s' →
     ExpressionSafe s' ∧ s'.output .bass ≤ 1023 ∧ s'.output .treble ≤ 1023) ∧
  (∀ s s' : State, ContextsSafe s → step s = .next s' → ContextsSafe s') ∧
  (∀ s s' : State, EepromSafe s → step s = .next s' → EepromSafe s'
)

/-- Every step keeps the cue queue within 256 entries and its times non-decreasing (R182), and the three
queues of the port within 8, 16 and 32 frames (R194 to R196). -/
def Obligations.QueuesKeepBounds : Prop :=
  (∀ s s' : State, CueSafe s → step s = .next s' → CueSafe s') ∧
  (∀ s s' : State, PortSafe s → step s = .next s' → PortSafe s')

/-- Every step keeps every aperture EMPTY while the tracker is not LOCKED (R37), and every roll note answering
to an open aperture that maps its key, or carrying a release time (R93). -/
def Obligations.RollNotesAnswerToApertures : Prop :=
  (∀ s s' : State, AperturesSafe s → step s = .next s' → AperturesSafe s') ∧
  (∀ s s' : State, AperturesSafe s → RollNotesSafe s → step s = .next s' → RollNotesSafe s')

/-! ### Resets and the image load -/

/-- FULL_RESET completes: the clock is 0, the port's queues are empty and its counters 0, the load runs with
no commit and no outcome, the scan receiver's buffers, assembly and counters, the tracker with its counts,
states and geometry, the hammer port, and every key, aperture, pedal, source context, voicing record and
heat figure are at their full reset values, the step timers are stopped, and with no commit in flight the
EEPROM is as it was (R205, R16, R36, R56, R108, R128, R143, R152, R178, R179, R191). That the last SPI
output is empty is the model's choice (log 11), and so is that the lines asserted at the reset, whose
bursts and transaction are ignored to their ends, are operands (log 6). -/
def Obligations.FullResetCompletes : Prop :=
  ∀ (lines : InputLines) (s : State), ∃ s', exec (.fullReset lines) s = .next s' ∧
    s'.clock = 0 ∧ s'.loader.ready = false ∧ s'.loader.outcome = none ∧ s'.loader.commit = none ∧
    s'.loader.lastCommit = .none ∧ (s.loader.commit = none → s'.loader.eeprom = s.loader.eeprom) ∧
    s'.port = { intake := [], responses := [], notices := [], overflowPending := false, framesDiscarded := 0
                noticesDiscarded := 0, reading := none, ignoring := lines.selected, output := [] } ∧
    s'.scan.current = none ∧ s'.scan.reference = none ∧ s'.scan.restartPending = false ∧
    s'.scan.restartMark = false ∧ s'.scan.linesDropped = 0 ∧ s'.scan.headersCorrected = 0 ∧
    s'.scan.segmentsDiscarded = 0 ∧ s'.scan.lastSyncFail = none ∧ s'.scan.lineTimer = none ∧
    s'.scan.ignored = lines.framed ∧ (∀ lane : Fin 4, s'.scan.buffers[lane] = []) ∧
    s'.tracker.mode = .stopped ∧ s'.tracker.centre = 0 ∧ s'.tracker.width = 0 ∧ s'.tracker.seeded = false ∧
    s'.tracker.lockCount = 0 ∧ s'.tracker.edgeFailures = 0 ∧ s'.tracker.endMarks = 0 ∧
    (∀ c : Channel, s'.tracker.lastStates[c] = false) ∧ (∀ ratio, s'.tracker.geometry = geometryOf 0 0 ratio) ∧
    (∀ c : Channel, s'.apertures.records[c] = { blind := false, life := .empty }) ∧
    s'.apertures.specks = 0 ∧ s'.apertures.notesMasked = 0 ∧ s'.apertures.notesOutOfRange = 0 ∧
    (∀ k : Key, s'.key k =
      { phase := .idle, flags := { mute := false, learnExclude := false, holdExempt := false }
        missCount := 0, lastVelocity := none, lastLateness := 0 }) ∧
    s'.quiet = false ∧ s'.queue.entries = [] ∧ s'.queue.status = .idle ∧
    (∀ k : Key, s'.heatOf k = 0) ∧ s'.expression.nextStep = none ∧ s'.heat.nextStep = none ∧
    s'.pedals.nextStep = none ∧
    (∀ p : Pedal, s'.pedal p =
      { mode := .idle, owner := .roll, target := 0, position := 0, lastReport := none, drive := 0
        events := [] }) ∧
    s'.hub.burst = [] ∧ s'.hub.ignoring = lines.hubBusy ∧ s'.hub.discarded = 0 ∧ s'.hub.implausible = 0 ∧
    s'.hub.unexpected = 0 ∧ s'.hub.overrun = false ∧ s'.hub.extra = false ∧
    (∀ k : Key, s'.voice k = VoicingRecord.factory) ∧
    s'.contexts.roll =
      { enabled := true, priority := 1, transpose := 0, keyLow := 1, keyHigh := 88, levelScale := 256 } ∧
    s'.contexts.cue =
      { enabled := true, priority := 2, transpose := 0, keyLow := 1, keyHigh := 88, levelScale := 256 } ∧
    s'.cue.entries = [] ∧ s'.cue.orderRef = none ∧ s'.cue.phraseOpen = false ∧ s'.cue.dropped = 0 ∧
    s'.pending = s.pending

/-- IMAGE_LOAD_COMPLETE completes for an image that is ABSENT or INVALID: the load state becomes READY, every
setting takes its default and every key the factory record, every block starts from its full reset values
with these settings (the tracker loads its working geometry, the contexts take their reset values with
RESET_LEVEL, the heat monitor takes its thresholds, the three step timers start), the source contexts, the
port's queues of frames and the EEPROM are kept, and IMAGE_ABSENT or IMAGE_INVALID with the first cause
that fails is raised (R200, R202, R36). The model's readings in this: the first step of each timer comes
1000 us after the completion (log 21), the last line taken is 0 (log 11), and a hub burst that runs across
the completion stays ignored (log 20). -/
def Obligations.LoadOfRefusedImage : Prop :=
  ∀ (s a : State) (t : Time) (acked : Bool) (framed : LaneSet),
    s.arrive t = a → a.loader.ready = false → a.port.notices.length < 32 →
    (acked = true → Memory.word a.loader.eeprom 0 ≠ 0x4E38 ∨ Memory.word a.loader.eeprom 1 ≠ 1828 ∨
      (crc16 (imageBytes (Memory.word a.loader.eeprom))).toNat ≠ Memory.word a.loader.eeprom 1828) →
    ∃ s', exec (.imageLoadComplete t acked framed) s = .next s' ∧ s'.clock = a.clock ∧
      s'.loader.ready = true ∧
      s'.loader.outcome = some (if acked then ImageOutcome.invalid else ImageOutcome.absent) ∧
      s'.loader.eeprom = a.loader.eeprom ∧ s'.contexts = a.contexts ∧ BlocksStarted framed a s' ∧
      (∀ x : Setting, s'.setting x = x.row.dflt) ∧ (∀ k : Key, s'.voice k = VoicingRecord.factory) ∧
      (∀ h : Half, s'.half h = HalfContext.atReset 512) ∧
      s'.heat.warn = 48000 ∧ s'.heat.max = 60000 ∧ s'.scan.ignored = framed ∧
      s'.expression.nextStep = some (a.clock + 1000) ∧ s'.heat.nextStep = some (a.clock + 1000) ∧
      s'.pedals.nextStep = some (a.clock + 1000) ∧
      s'.port = { a.port with
        notices := a.port.notices ++
          [if acked then
            { kind := .imageInvalid, lost := false, time := a.clock
              fields := [if Memory.word a.loader.eeprom 0 ≠ 0x4E38 then 0
                else if Memory.word a.loader.eeprom 1 ≠ 1828 then 1 else 2] }
           else { kind := .imageAbsent, lost := false, time := a.clock, fields := [] }] }

/-- IMAGE_LOAD_COMPLETE completes for an image that is LOADED: every setting takes the value of its word, or
of its two words with the more significant first, or its default when a word is FFFF or the value is out
of range; then both of VEL_MIN and VEL_MAX, and both of HEAT_WARN and HEAT_MAX, take their defaults when
the first is not below the second. Each voicing record is its 20 words when they are fit and the flags
word asks for voicing, else the factory record. Every block starts from its full reset values with these
settings, and no notice is raised (R200 to R202, R36). That FFFF in either word of a setting of two words
gives the default is the model's reading of two rules that disagree (log 16); the first step (log 21), the
last line taken (log 11) and the hub burst across the completion (log 20) are its readings too. -/
def Obligations.LoadOfGoodImage : Prop :=
  ∀ (s a : State) (t : Time) (framed : LaneSet) (m : List Host.Cell) (v : Setting → Nat),
    s.arrive t = a → a.loader.ready = false → a.loader.eeprom = m →
    Memory.word m 0 = 0x4E38 → Memory.word m 1 = 1828 →
    (crc16 (imageBytes (Memory.word m))).toNat = Memory.word m 1828 →
    (∀ x : Setting, v x =
      if x.row.wide = true then
        if Memory.word m x.row.word ≠ 0xFFFF ∧ Memory.word m (x.row.word + 1) ≠ 0xFFFF ∧
          x.row.lo ≤ 65536 * Memory.word m x.row.word + Memory.word m (x.row.word + 1) ∧
          65536 * Memory.word m x.row.word + Memory.word m (x.row.word + 1) ≤ x.row.hi
        then 65536 * Memory.word m x.row.word + Memory.word m (x.row.word + 1) else x.row.dflt
      else if Memory.word m x.row.word ≠ 0xFFFF ∧ x.row.lo ≤ Memory.word m x.row.word ∧
          Memory.word m x.row.word ≤ x.row.hi then Memory.word m x.row.word else x.row.dflt) →
    ∃ s', exec (.imageLoadComplete t true framed) s = .next s' ∧
      s'.loader.ready = true ∧ s'.loader.outcome = some .loaded ∧ s'.loader.eeprom = m ∧ s'.port = a.port ∧
      BlocksStarted framed a s' ∧
      (∀ x : Setting, s'.setting x =
        if (x = .velMin ∨ x = .velMax) ∧ v .velMax ≤ v .velMin ∨ (x = .heatWarn ∨ x = .heatMax) ∧ v .heatMax ≤ v .heatWarn
        then x.row.dflt else v x) ∧
      s'.setting .velMin < s'.setting .velMax ∧ s'.setting .heatWarn < s'.setting .heatMax ∧
      (∀ k : Key, s'.voice k =
        if Memory.word m 2 % 2 = 1 ∧ (recordOfWords fun j => Memory.word m (64 + 20 * k.val + j)).valid = true
            ∧ Memory.word m (64 + 20 * k.val + 19) = 0xFFFF
        then recordOfWords fun j => Memory.word m (64 + 20 * k.val + j)
        else VoicingRecord.factory)

/-- PERFORMANCE_RESET completes: it is answered OK, and in one event the tracker stops, the assembly is
cleared, every aperture is EMPTY, both contexts take their reset values, every key that is not RETIRED is
IDLE with its flags, counts and last values kept, the strike queue and the cue queue are empty and both
pedals IDLE under ROLL; the queues of the port but for the answer, the clock, the settings, the voicing
table, the source contexts, the heat figures, QUIET and the commit are kept (R206, R108, R178, R191). -/
def Obligations.PerformanceResetCompletes : Prop :=
  ∀ (s a : State) (t : Time) (tag : Byte), s.arrive t = a → RequestAtHead a 0x05 tag [] →
    ∃ s', exec (.performanceReset t) s = .next s' ∧
      s' = { a with
        scan := { a.scan with current := none, reference := none, lineTimer := none }
        tracker := { a.tracker with mode := .stopped, lockCount := 0, edgeFailures := 0, endMarks := 0 }
        apertures := { a.apertures with records := s'.apertures.records }
        expression := { a.expression with
          bass := HalfContext.atReset (a.setting .resetLevel)
          treble := HalfContext.atReset (a.setting .resetLevel) }
        keys := s'.keys
        queue := { entries := [], status := .idle }
        pedals := { a.pedals with
          sustain := { a.pedals.sustain with mode := .idle, owner := .roll, target := 0, drive := 0, events := [] }
          shift := { a.pedals.shift with mode := .idle, owner := .roll, target := 0, drive := 0, events := [] } }
        cue := { a.cue with entries := [], orderRef := none, phraseOpen := false }
        port := answeredPort a.port 0x05 tag .ok [] } ∧
      (∀ c : Channel, s'.apertures.records[c] = { blind := false, life := .empty }) ∧
      (∀ k : Key, s'.key k =
        { a.key k with phase := if isRetired (a.key k).phase then (a.key k).phase else .idle }) ∧
      claimSum s' = 0


/-! ### Scan link and roll tracking -/

/-- SEGMENT_ARRIVAL of a good segment completes. Between lines one ahead of the reference line begins a
current line with the present LANE_ENABLE as its required set and light everywhere but on its lane; one of
the current line fills its lane (R7, R8, R9). A segment ahead of the current line drops it into
LINES_DROPPED and LAST_SYNC_FAIL and begins its own (R11). The segment that completes a line, also one
that begins it and one that drops the line before it, when LANE_ENABLE holds its lane alone, hands it to
the tracker with its time, its missing count and the restart mark, and then the line is the reference
line, no line is current, a pending restart has taken effect, and the line timer runs to LINE_TIMEOUT from
the line's time when the tracker is LOCKED, and else stands (R10, R14, R15). A stale segment, or one of a
lane outside the set it must belong to, is discarded and counted (R7, R12). A segment whose header was
corrected does, with HEADERS_CORRECTED counted, what the same segment with that header clean does (R3,
R13). Nothing else changes. -/
def Obligations.SegmentsAssembleLines : Prop :=
  (∀ (s a : State) (t : Time) (lane : Fin 4) (bytes : List Byte) (header : BitVec 24),
     s.arrive t = a → LaneReady a lane → GoodSegment lane bytes header →
     (a.scan.current = none → a.scan.restartPending = false →
       (∀ r, a.scan.reference = some r → 1 ≤ (headerLine header - r).toNat ∧ (headerLine header - r).toNat ≤ 32767) →
       (laneEnable a).getLsbD lane.val = true → laneBit lane ≠ laneEnable a →
       exec (.segmentArrival t lane.val bytes) s = .next { a with
         scan := { a.scan with
           buffers := a.scan.buffers.set lane []
           current := some
             { number := headerLine header
               required := laneEnable a
               delivered := laneBit lane
               lanes := (Vector.replicate 4 (BitVec.allOnes 512)).set lane (burstPixels bytes)
               arrival := a.clock } } }) ∧
     (∀ c, a.scan.current = some c → c.number = headerLine header → c.required.getLsbD lane.val = true →
       c.delivered ||| laneBit lane ≠ c.required →
       exec (.segmentArrival t lane.val bytes) s = .next { a with
         scan := { a.scan with
           buffers := a.scan.buffers.set lane []
           current := some
             { c with
               delivered := c.delivered ||| laneBit lane
               lanes := c.lanes.set lane (burstPixels bytes)
               arrival := a.clock } } })) ∧
  (∀ (s a handed : State) (t : Time) (lane : Fin 4) (bytes : List Byte) (header : BitVec 24) (c : CurrentLine)
     (missing : Nat) (x : Scan),
     s.arrive t = a → LaneReady a lane → GoodSegment lane bytes header →
     ((laneBit lane = laneEnable a ∧
         c = { number := headerLine header, required := laneBit lane, delivered := laneBit lane
               lanes := (Vector.replicate 4 (BitVec.allOnes 512)).set lane (burstPixels bytes)
               arrival := a.clock } ∧
         ((a.scan.current = none ∧ a.scan.restartPending = false ∧
             x = { a.scan with buffers := a.scan.buffers.set lane [] }) ∨
           ∃ c0, a.scan.current = some c0 ∧ 1 ≤ (headerLine header - c0.number).toNat ∧
             (headerLine header - c0.number).toNat ≤ 32767 ∧
             x = { a.scan with
               buffers := a.scan.buffers.set lane []
               linesDropped := min 65535 (a.scan.linesDropped + 1)
               lastSyncFail := some { number := c0.number, required := c0.required, delivered := c0.delivered }
               restartMark := a.scan.restartMark || a.scan.restartPending
               restartPending := false })) ∨
       ∃ c0, a.scan.current = some c0 ∧ c0.number = headerLine header ∧ c0.required.getLsbD lane.val = true ∧
         c0.delivered ||| laneBit lane = c0.required ∧
         c = { c0 with
           delivered := c0.required, lanes := c0.lanes.set lane (burstPixels bytes), arrival := a.clock } ∧
         x = { a.scan with buffers := a.scan.buffers.set lane [] }) →
     (a.scan.reference = none → missing = 0) →
     (∀ r, a.scan.reference = some r → 1 ≤ (c.number - r).toNat ∧ (c.number - r).toNat ≤ 32767 ∧
       missing + 1 = (c.number - r).toNat) →
     takeLine { number := c.number, lanes := c.lanes, time := a.clock, missing := missing, mark := x.restartMark }
       { a with scan := { x with current := some c } } = handed →
     exec (.segmentArrival t lane.val bytes) s = .next { handed with
       scan := { x with
         reference := some c.number
         current := none
         restartMark := x.restartPending
         restartPending := false
         lineTimer :=
           if handed.tracker.mode = .locked ∧ a.setting .lineTimeout ≠ 0
           then some (timePlus a.clock (1000 * (a.setting .lineTimeout : Int))) else none } }) ∧
  (∀ (s a : State) (t : Time) (lane : Fin 4) (bytes : List Byte) (header : BitVec 24) (c : CurrentLine),
     s.arrive t = a → LaneReady a lane → GoodSegment lane bytes header → a.scan.current = some c →
     1 ≤ (headerLine header - c.number).toNat → (headerLine header - c.number).toNat ≤ 32767 →
     (laneEnable a).getLsbD lane.val = true → laneBit lane ≠ laneEnable a →
     exec (.segmentArrival t lane.val bytes) s = .next { a with
       scan := { a.scan with
         buffers := a.scan.buffers.set lane []
         linesDropped := min 65535 (a.scan.linesDropped + 1)
         lastSyncFail := some { number := c.number, required := c.required, delivered := c.delivered }
         restartMark := a.scan.restartMark || a.scan.restartPending
         restartPending := false
         current := some
           { number := headerLine header
             required := laneEnable a
             delivered := laneBit lane
             lanes := (Vector.replicate 4 (BitVec.allOnes 512)).set lane (burstPixels bytes)
             arrival := a.clock } } }) ∧
  (∀ (s a : State) (t : Time) (lane : Fin 4) (bytes : List Byte) (header : BitVec 24),
     s.arrive t = a → LaneReady a lane → GoodSegment lane bytes header →
     ((a.scan.current = none ∧ (laneEnable a).getLsbD lane.val = false) ∨
       (a.scan.current = none ∧ ∃ r, a.scan.reference = some r ∧
         (headerLine header = r ∨ 32767 < (headerLine header - r).toNat)) ∨
       ∃ c, a.scan.current = some c ∧
         ((c.number = headerLine header ∧ c.required.getLsbD lane.val = false) ∨
           (c.number ≠ headerLine header ∧ (laneEnable a).getLsbD lane.val = false) ∨
           32767 < (headerLine header - c.number).toNat)) →
     exec (.segmentArrival t lane.val bytes) s = .next { a with
       scan := { a.scan with
         buffers := a.scan.buffers.set lane []
         segmentsDiscarded := min 65535 (a.scan.segmentsDiscarded + 1) } }) ∧
  (∀ (s u a : State) (t : Time) (lane : Fin 4) (bytes clean : List Byte) (header : BitVec 24),
     s.arrive t = a →
     u.arrive t = { a with
       scan := { a.scan with headersCorrected := min 65535 (a.scan.headersCorrected + 1) } } →
     LaneReady a lane → bytes.length = 70 →
     checkHeader (segmentHeader bytes) (bytes.getD 3 0) = .corrected header →
     GoodSegment lane clean header → bytes.drop 4 = clean.drop 4 →
     exec (.segmentArrival t lane.val bytes) s = exec (.segmentArrival t lane.val clean) u)

/-- A burst that is not 70 bytes, or whose header cannot be corrected, or whose format marker, lane id or
payload CRC is wrong, is discarded: SEGMENTS_DISCARDED counts it once, HEADERS_CORRECTED once more where
the header was corrected, and nothing else changes (R1, R3, R4, R5, R13). -/
def Obligations.BadBurstsDiscarded : Prop :=
  ∀ (s a : State) (t : Time) (lane : Fin 4) (bytes : List Byte),
    s.arrive t = a → LaneReady a lane →
    (bytes.length ≠ 70 ∨ checkHeader (segmentHeader bytes) (bytes.getD 3 0) = .uncorrectable ∨
      ∃ h, (checkHeader (segmentHeader bytes) (bytes.getD 3 0) = .clean h ∨
          checkHeader (segmentHeader bytes) (bytes.getD 3 0) = .corrected h) ∧
        (h.extractLsb' 18 6 ≠ 0b010110#6 ∨ (h.extractLsb' 16 2).toNat ≠ lane.val ∨
          (crc16 ((bytes.drop 4).take 64)).toNat ≠ valueOf (bytes.drop 68))) →
    ∃ corrected, (corrected = 1 ↔ bytes.length = 70 ∧
        ∃ h, checkHeader (segmentHeader bytes) (bytes.getD 3 0) = .corrected h) ∧ corrected ≤ 1 ∧
      exec (.segmentArrival t lane.val bytes) s = .next { a with
        scan := { a.scan with
          buffers := a.scan.buffers.set lane []
          headersCorrected := if corrected = 1 then min 65535 (a.scan.headersCorrected + 1)
            else a.scan.headersCorrected
          segmentsDiscarded := min 65535 (a.scan.segmentsDiscarded + 1) } }

/-- The header code corrects every one-bit error. Where a check byte makes a header clean, the same check byte
makes the header with any one bit inverted the corrected header, and that check byte with any one of its
bits c0 to c4 and p inverted makes the header as received the corrected one (R2, R3). -/
def Obligations.HeaderCodeCorrectsOneBit : Prop :=
  ∀ (header : BitVec 24) (check : Byte), checkHeader header check = .clean header →
    (∀ j : Fin 24, checkHeader (header ^^^ ((1 : BitVec 24) <<< j.val)) check = .corrected header) ∧
    ∀ j : Fin 6, checkHeader header (check ^^^ ((1 : Byte) <<< j.val)) = .corrected header

/-- A line with valid edges taken in SEEKING or LOST, without a restart mark, counts toward lock: C and W are
seeded from its edges or moved one eighth of the way, the lock count starts anew behind a gap of more than
3 lines, and at LOCK_LINES the tracker is LOCKED, with every channel blind or not as the locking line
shows it and TRACK_LOCKED raised with relock clear from SEEKING and set from LOST; one with invalid edges
sets the lock count to 0 and changes nothing else but the line last taken (R21, R24, R25). In STOPPED a
line changes nothing (R17). A restart mark first loads the working geometry settings, and in LOCKED
recomputes the geometry; the line is then taken as any other (R18). That every line with valid edges
recomputes the geometry, also where C and W come out unchanged, is the model's reading (log 28). That the
relock flag is sent as 0 when clear and 1 when set is the model's choice (log 13). -/
def Obligations.SeekingLinesCountTowardLock : Prop :=
  (∀ (s s' : State) (ln : CompletedLine) (left right count : Nat),
     s.tracker.mode = .seeking ∨ s.tracker.mode = .lost → ln.mark = false → s.port.notices.length < 32 →
     validEdges s.tracker.working ln.lanes = some (left, right) →
     count = (if 3 < ln.missing then 0 else s.tracker.lockCount) + 1 → takeLine ln s = s' →
     s'.tracker.lockCount = count ∧ s'.tracker.seeded = true ∧ s'.tracker.lastLine = ln.number ∧
     (s.tracker.seeded = false → s'.tracker.centre = 8 * (left + right) ∧
       s'.tracker.width = 16 * (right + 1 - left)) ∧
     (s.tracker.seeded = true →
       (s'.tracker.centre : Int) =
         s.tracker.centre + (((8 * (left + right) : Nat) : Int) - s.tracker.centre).tdiv 8 ∧
       (s'.tracker.width : Int) =
         s.tracker.width + (((16 * (right + 1 - left) : Nat) : Int) - s.tracker.width).tdiv 8) ∧
     s'.tracker.geometry = geometryOf s'.tracker.centre s'.tracker.width s.tracker.working.spanRatio ∧
     (count < s.setting .lockLines →
       s'.tracker.mode = s.tracker.mode ∧ s'.apertures = s.apertures ∧ s'.port = s.port) ∧
     (s.setting .lockLines ≤ count → s'.tracker.mode = .locked ∧ s'.tracker.edgeFailures = 0 ∧
       s'.tracker.endMarks = 0 ∧
       s'.tracker.lastStates = channelStates s'.tracker.geometry ln.lanes ∧
       (∀ c : Channel, s'.apertures.records[c] =
         { s.apertures.records[c] with blind := s'.tracker.lastStates[c] }) ∧
       s'.port.notices = s.port.notices ++
         [{ kind := .trackLocked, lost := false, time := s.clock
            fields := fieldLine ln.number ++ [if s.tracker.mode = .lost then 1 else 0] }]) ∧
     s'.keys = s.keys ∧ s'.pedals = s.pedals ∧ s'.expression = s.expression ∧ s'.scan = s.scan) ∧
  (∀ (s : State) (ln : CompletedLine), s.tracker.mode = .seeking ∨ s.tracker.mode = .lost → ln.mark = false →
     validEdges s.tracker.working ln.lanes = none → 0 < s.setting .lockLines →
     takeLine ln s = { s with tracker := { s.tracker with lockCount := 0, lastLine := ln.number } }) ∧
  (∀ (s : State) (ln : CompletedLine), s.tracker.mode = .stopped → ln.mark = false → takeLine ln s = s) ∧
  (∀ (s : State) (ln : CompletedLine), ln.mark = true →
     takeLine ln s = takeLine { ln with mark := false } { s with
       tracker := { s.tracker with
         working := { edgeRun := s.setting .edgeRun, nominalWidth := s.setting .nominalWidth
                      widthTol := s.setting .widthTol, spanRatio := s.setting .spanRatio }
         geometry :=
           if s.tracker.mode = .locked
           then geometryOf s.tracker.centre s.tracker.width (s.setting .spanRatio) else s.tracker.geometry } })

/-- LINE_TIMER_EXPIRY completes: with the tracker LOCKED and the line timer's expiry come, the timer stops,
the tracker is LOST with lock count 0 and its C, W and geometry kept, every aperture is EMPTY, the roll's
keys and pedals are withdrawn, both chord latches are absent, and TRACK_LOST is raised with the reason
SILENT and the last line taken (R15, R29, R32, R106, R174, R73). -/
def Obligations.LineTimeoutLosesTheRoll : Prop :=
  ∀ (s a : State) (t due : Time), s.arrive t = a → a.tracker.mode = .locked →
    a.scan.lineTimer = some due → reached a.clock due → a.port.notices.length < 32 →
    ∃ s', exec (.lineTimerExpiry t) s = .next s' ∧
      s'.scan = { a.scan with lineTimer := none } ∧
      s'.tracker = { a.tracker with mode := .lost, lockCount := 0 } ∧
      (∀ c : Channel, s'.apertures.records[c] = { blind := false, life := .empty }) ∧
      (∀ k : Key, WithdrawnKey .roll a s' k) ∧
      (∀ p : Pedal, s'.pedal p = if (a.pedal p).owner = .roll
        then { a.pedal p with events := [], target := 0 } else a.pedal p) ∧
      (∀ h : Half, s'.half h = { a.half h with latch := none }) ∧
      s'.port = { a.port with notices := a.port.notices ++
        [{ kind := .trackLost, lost := false, time := a.clock, fields := 2 :: fieldLine a.tracker.lastLine }] } ∧
      s'.clock = a.clock ∧ s'.settings = a.settings ∧ s'.contexts = a.contexts ∧ s'.voicing = a.voicing ∧
      s'.heat = a.heat ∧ s'.hub = a.hub ∧ s'.cue = a.cue ∧ s'.loader = a.loader ∧ s'.quiet = a.quiet

/-- ROLL_START completes: taken in STOPPED and answered OK, the tracker is SEEKING with its counts 0, seeded
clear, the last channel states closed and the working geometry loaded, the assembly and the scan counters
are cleared, every channel is EMPTY and blind with the aperture counters 0, and nothing else changes but
the answer. In any other state it is refused with STATE (R33, R16, R18, R52). -/
def Obligations.RollStartCompletes : Prop :=
  ∀ (s a : State) (t : Time) (tag : Byte), s.arrive t = a → RequestAtHead a 0x08 tag [] →
    (a.tracker.mode = .stopped → exec (.rollStart t) s = .next { a with
      tracker := { a.tracker with
        mode := .seeking, lockCount := 0, edgeFailures := 0, endMarks := 0, seeded := false
        lastStates := Vector.replicate 102 false
        working := { edgeRun := a.setting .edgeRun, nominalWidth := a.setting .nominalWidth
                     widthTol := a.setting .widthTol, spanRatio := a.setting .spanRatio } }
      scan := { a.scan with
        current := none, reference := none, linesDropped := 0, headersCorrected := 0, segmentsDiscarded := 0
        lastSyncFail := none }
      apertures := { records := Vector.replicate 102 { blind := true, life := .empty }
                     specks := 0, notesMasked := 0, notesOutOfRange := 0 }
      port := answeredPort a.port 0x08 tag .ok [] }) ∧
    (a.tracker.mode ≠ .stopped → exec (.rollStart t) s = .next { a with
      port := answeredPort a.port 0x08 tag .state [] })

/-- ROLL_STOP completes in every tracker state: answered OK, the tracker is STOPPED with its counts 0; from
LOCKED every aperture is EMPTY, the roll's keys and pedals are withdrawn, the chord latches are absent and
the line timer stops; from SEEKING and LOST nothing else changes; in STOPPED nothing changes but the
answer (R34, R31, R32). -/
def Obligations.RollStopCompletes : Prop :=
  ∀ (s a : State) (t : Time) (tag : Byte), s.arrive t = a → RequestAtHead a 0x09 tag [] →
    ∃ s', exec (.rollStop t) s = .next s' ∧ s'.port = answeredPort a.port 0x09 tag .ok [] ∧
      s'.tracker.mode = .stopped ∧
      (a.tracker.mode = .stopped → s' = { a with port := s'.port }) ∧
      (a.tracker.mode = .seeking ∨ a.tracker.mode = .lost → s' = { a with
        port := s'.port
        tracker := { a.tracker with mode := .stopped, lockCount := 0, edgeFailures := 0, endMarks := 0 } }) ∧
      (a.tracker.mode = .locked →
        s'.tracker = { a.tracker with mode := .stopped, lockCount := 0, edgeFailures := 0, endMarks := 0 } ∧
        s'.scan = { a.scan with lineTimer := none } ∧
        (∀ c : Channel, s'.apertures.records[c] = { blind := false, life := .empty }) ∧
        (∀ k : Key, WithdrawnKey .roll a s' k) ∧
        (∀ p : Pedal, s'.pedal p = if (a.pedal p).owner = .roll
          then { a.pedal p with events := [], target := 0 } else a.pedal p) ∧
        (∀ h : Half, s'.half h = { a.half h with latch := none }) ∧
        s'.settings = a.settings ∧ s'.contexts = a.contexts ∧ s'.heat = a.heat ∧ s'.cue = a.cue)

/-! ### Apertures -/

/-- A sampled line gives every channel the transition its record, its blind marking and its state on the line
call for, whatever the events of the line go on to do (R38 to R43). A line taken in LOCKED: more than 3
lines missing lose the roll with reason GAP, and the line is taken in LOST; 1 to 3 are first sent as held
lines with the last channel states and the line's time; then its edges move C, W and the geometry, or
count as a failure, which at EDGE_LOSS_LINES loses the roll with reason EDGES; then its channel states,
under the geometry in force, are judged for the end mark, which at END_LINES stops the tracker, resets
both half contexts and raises ROLL_END, and else are sent as a sampled line (R21, R22, R26 to R32). -/
def Obligations.SampledLineTransitions : Prop :=
  (∀ (s s' : State) (line : LineNo) (time : Time) (states : Vector Bool 102) (c : Channel),
     takeSampledLine line time states s = s' →
     (∀ r, s.apertures.records[c] = r → r.life = .empty → r.blind = true →
       s'.apertures.records[c] = { blind := states[c], life := .empty }) ∧
     (∀ r, s.apertures.records[c] = r → r.life = .empty → r.blind = false →
       s'.apertures.records[c].blind = false ∧
       (states[c] = false → s'.apertures.records[c].life = .empty) ∧
       (states[c] = true → 1 < s.setting .confirmLines →
         s'.apertures.records[c].life = .tentative line time 1)) ∧
     (∀ l0 t0 seen, (s.apertures.records[c]).life = .tentative l0 t0 seen →
       (states[c] = false → s'.apertures.records[c] = { blind := false, life := .empty }) ∧
       (states[c] = true → seen + 1 < s.setting .confirmLines →
         (s'.apertures.records[c]).life = .tentative l0 t0 (seen + 1)) ∧
       (states[c] = true → s.setting .confirmLines ≤ seen + 1 →
         ∃ m, (s'.apertures.records[c]).life = .opened l0 t0 m ∧ m = confirmMapping s c)) ∧
     (∀ l0 t0 m, (s.apertures.records[c]).life = .opened l0 t0 m →
       (states[c] = true → s'.apertures.records[c] = s.apertures.records[c]) ∧
       (states[c] = false → 1 ≤ s.setting .bridgeLines →
         (s'.apertures.records[c]).life = .bridging l0 t0 m line time 1) ∧
       (states[c] = false → s.setting .bridgeLines = 0 →
         s'.apertures.records[c] = { blind := false, life := .empty })) ∧
     (∀ l0 t0 m lc tc absent, (s.apertures.records[c]).life = .bridging l0 t0 m lc tc absent →
       (states[c] = true → (s'.apertures.records[c]).life = .opened l0 t0 m) ∧
       (states[c] = false → absent + 1 ≤ s.setting .bridgeLines →
         (s'.apertures.records[c]).life = .bridging l0 t0 m lc tc (absent + 1)) ∧
       (states[c] = false → s.setting .bridgeLines < absent + 1 →
         s'.apertures.records[c] = { blind := false, life := .empty }))) ∧
  (∀ (s : State) (ln : CompletedLine), s.tracker.mode = .locked → ln.mark = false → 3 < ln.missing →
     s.port.notices.length < 32 → ∃ lost,
       RollLost 1 ln.number { s with tracker := { s.tracker with lastLine := ln.number } } lost ∧
       takeLine ln s = takeLine ln lost) ∧
  (∀ (s u : State) (ln : CompletedLine), s.tracker.mode = .locked → ln.mark = false → ln.missing ≤ 3 →
     u = (List.range ln.missing).reverse.foldl
       (fun w j => takeSampledLine (ln.number - BitVec.ofNat 16 (j + 1)) ln.time s.tracker.lastStates w)
       { s with tracker := { s.tracker with lastLine := ln.number } } →
     (validEdges s.tracker.working ln.lanes = none → s.setting .edgeLossLines ≤ s.tracker.edgeFailures + 1 →
       u.port.notices.length < 32 → ∃ lost,
         RollLost 0 ln.number { u with
           tracker := { u.tracker with edgeFailures := s.tracker.edgeFailures + 1 } } lost ∧
         takeLine ln s = takeLine ln lost) ∧
     ∀ (tr : Tracker) (states : Vector Bool 102) (marks : Nat),
       ((∃ left right centre width : Nat, validEdges s.tracker.working ln.lanes = some (left, right) ∧
           0 < s.setting .edgeLossLines ∧
           (centre : Int) = (if s.tracker.seeded then
             s.tracker.centre + (((8 * (left + right) : Nat) : Int) - s.tracker.centre).tdiv 8
             else ((8 * (left + right) : Nat) : Int)) ∧
           (width : Int) = (if s.tracker.seeded then
             s.tracker.width + (((16 * (right + 1 - left) : Nat) : Int) - s.tracker.width).tdiv 8
             else ((16 * (right + 1 - left) : Nat) : Int)) ∧
           tr = { s.tracker with
             lastLine := ln.number, centre := centre, width := width, seeded := true, edgeFailures := 0
             geometry := geometryOf centre width s.tracker.working.spanRatio }) ∨
         (validEdges s.tracker.working ln.lanes = none ∧ s.tracker.edgeFailures + 1 < s.setting .edgeLossLines ∧
           tr = { s.tracker with lastLine := ln.number, edgeFailures := s.tracker.edgeFailures + 1 })) →
       states = channelStates tr.geometry ln.lanes →
       marks = (if (if s.setting .endMode = 0 then 14 else 13) ≤
           ((List.finRange 102).filter fun c => decide (c.val ≤ 6 ∨ 95 ≤ c.val) && states[c]).length
         then s.tracker.endMarks + 1 else 0) →
       (marks < s.setting .endLines → takeLine ln s = takeSampledLine ln.number ln.time states { u with
         tracker := { tr with endMarks := marks, lastStates := states } }) ∧
       (s.setting .endLines ≤ marks → u.port.notices.length < 32 →
         RollLeft u (takeLine ln s) ∧
         (takeLine ln s).tracker = { tr with mode := .stopped, lockCount := 0, edgeFailures := 0, endMarks := 0 } ∧
         (∀ h : Half, (takeLine ln s).half h = HalfContext.atReset (s.setting .resetLevel)) ∧
         (takeLine ln s).port = { u.port with notices := u.port.notices ++
           [{ kind := .rollEnd, lost := false, time := s.clock, fields := fieldLine ln.number }] }))

/-- APERTURE_CLOSE completes: answered OK with the state the record held, the record is EMPTY and blind, and
no other record changes; a channel above 101 is refused with BAD_ARGUMENT. An EMPTY or TENTATIVE record
sends no event, and nothing else changes. An OPEN or BRIDGING one sends its close: a control channel's to
the context of its half (R59 to R63), a PEDAL channel's as a release at one PERF_LATENCY from now less
PEDAL_LEAD_OFF to its pedal (R51, R166), a note channel's to the key it is mapped to, where it stores its
release time, one PERF_LATENCY from now, with the note that the channel owns, in PENDING, STRIKE, HOLD and
REPEAT alike (R49, R88), and does nothing on a key the channel does not own or with no mapped key (R55,
R87). The event of a channel that alone confirms or closes on a sampled line reaches the same receivers: a
control event, an engage or a release, and, for a note on an IDLE key of an enabled ROLL context, a
PENDING note with its sound time, its level and its chord latch (R48, R50, R51, R70 to R72), or a count in
NOTES_MASKED or NOTES_OUT_OF_RANGE (R53). -/
def Obligations.ApertureCloseCompletes : Prop :=
  (∀ (s a : State) (t release : Time) (tag : Byte), s.arrive t = a →
     release = timePlus a.clock (100 * (a.setting .perfLatency : Int)) →
     (∀ (c : Channel) (records : Vector Aperture 102) (port : HostPort),
       RequestAtHead a 0x0D tag [byteOf c.val] →
       records = a.apertures.records.set c { blind := true, life := .empty } →
       port = answeredPort a.port 0x0D tag .ok [byteOf (lifeNumber (a.apertures.records[c]).life)] →
       (lifeNumber (a.apertures.records[c]).life ≤ 1 →
         exec (.apertureClose t) s = .next { a with
           apertures := { a.apertures with records := records }, port := port }) ∧
       ∀ m : Option Mapping,
         ((∃ l0 t0, (a.apertures.records[c]).life = .opened l0 t0 m) ∨
           ∃ l0 t0 lc tc absent, (a.apertures.records[c]).life = .bridging l0 t0 m lc tc absent) →
         (∀ h place, ControlChannel c h place → ∃ x, ControlTaken (a.setting .stepSize) place false (a.half h) x ∧
           exec (.apertureClose t) s = .next { a.setHalf h x with
             apertures := { a.apertures with records := records }, port := port }) ∧
         (∀ p : Pedal, c = (match p with | .sustain => 6 | .shift => 101) → ∃ x,
           PedalEventTaken a.clock
             { time := timePlus release (-(1000 * (a.setting .pedalLeadOff : Int))), target := 0 } (a.pedal p) x ∧
           exec (.apertureClose t) s = .next { a.setPedal p x with
             apertures := { a.apertures with records := records }, port := port }) ∧
         (6 < c.val → c.val < 95 →
           ((∀ k, m ≠ some (.key k)) → exec (.apertureClose t) s = .next { a with
             apertures := { a.apertures with records := records }, port := port }) ∧
           ∀ k, m = some (.key k) → a.queue.status ≠ .waiting →
             (a.owner k ≠ some (rollOwner c) → exec (.apertureClose t) s = .next { a with
               apertures := { a.apertures with records := records }, port := port }) ∧
             (a.owner k = some (rollOwner c) → ∃ p,
               ReleaseStored a.clock (timePlus a.clock (1000 * ((a.voice k).repeatGap : Int))) release
                 (a.key k).phase p ∧
               exec (.apertureClose t) s = .next { a with
                 keys := a.keys.set k { a.key k with phase := p }
                 apertures := { a.apertures with records := records }
                 port := port }))) ∧
     (∀ n : Nat, 101 < n → n < 256 → RequestAtHead a 0x0D tag [byteOf n] →
       exec (.apertureClose t) s = .next { a with port := answeredPort a.port 0x0D tag .badArgument [] })) ∧
  (∀ (s s' : State) (line : LineNo) (time : Time) (states : Vector Bool 102) (c : Channel),
     takeSampledLine line time states s = s' →
     (∀ d : Channel, d ≠ c → (lineTransition (s.setting .confirmLines) (s.setting .bridgeLines) (confirmMapping s d)
       line time states[d] s.apertures.records[d]).2 = none) →
     (∀ (l0 : LineNo) (t0 : Time), states[c] = true →
       ((∃ seen, (s.apertures.records[c]).life = .tentative l0 t0 seen ∧ s.setting .confirmLines ≤ seen + 1) ∨
         (s.apertures.records[c] = { blind := false, life := .empty } ∧ s.setting .confirmLines ≤ 1 ∧ l0 = line ∧
           t0 = time)) →
       (∀ h place, ControlChannel c h place → ∃ x, ControlTaken (s.setting .stepSize) place true (s.half h) x ∧
         s' = { s.setHalf h x with apertures := { s.apertures with records := s'.apertures.records } }) ∧
       (∀ p : Pedal, c = (match p with | .sustain => 6 | .shift => 101) → ∃ x,
         PedalEventTaken s.clock
           { time := timePlus (timePlus t0 (100 * (s.setting .perfLatency : Int)))
               (-(1000 * (s.setting .pedalLeadOn : Int)))
             target := s.setting .pedalEngagePos } (s.pedal p) x ∧
         s' = { s.setPedal p x with apertures := { s.apertures with records := s'.apertures.records } }) ∧
       (6 < c.val → c.val < 95 → ∀ k : Key, k = transposedKey s.contexts.roll (c.val - 6) →
         (s.contexts.roll.enabled = false → s' = { s with
           apertures := { s.apertures with
             records := s'.apertures.records, notesMasked := min 65535 (s.apertures.notesMasked + 1) } }) ∧
         (s.contexts.roll.enabled = true →
           (keyNumber k < s.contexts.roll.keyLow ∨ s.contexts.roll.keyHigh < keyNumber k → s' = { s with
             apertures := { s.apertures with
               records := s'.apertures.records
               notesOutOfRange := min 65535 (s.apertures.notesOutOfRange + 1) } }) ∧
           (s.contexts.roll.keyLow ≤ keyNumber k → keyNumber k ≤ s.contexts.roll.keyHigh →
             ∀ (h : Half) (accent : Bool) (level : Nat) (latch : Option ChordLatch) (n : Note) (v : StrikeValues),
             (s.key k).phase = .idle → s.queue.entries = [] → s.queue.status = .idle →
             h = (if keyNumber k ≤ s.setting .splitKey then .bass else .treble) →
             accent = (match h, lifeNumber (s'.apertures.records[(4 : Channel)]).life,
                 lifeNumber (s'.apertures.records[(99 : Channel)]).life with
               | .bass, 1, _ => true
               | .bass, 2, _ => true
               | .treble, _, 1 => true
               | .treble, _, 2 => true
               | _, _, _ => false) →
             RollLevel s h l0 accent level latch →
             n = { claimant := { source := .roll, id := byteOf c.val }
                   sound := timePlus t0 (100 * (s.setting .perfLatency : Int)), level := level, release := none } →
             v = strikeValuesOf (s.setting .velMin) (s.setting .velMax) (s.voice k) s.pedals.shift.position level
               n.sound →
             ¬ reached s.clock v.planned →
             s' = { s.setHalf h { s.half h with latch := latch } with
               apertures := { s.apertures with records := s'.apertures.records }
               keys := s.keys.set k { s.key k with phase := .pending n v }
               queue := { entries := [{ key := k, planned := v.planned }], status := .timed } })))) ∧
     (∀ (m : Option Mapping) (tc : Time), states[c] = false →
       ((∃ l0 t0, (s.apertures.records[c]).life = .opened l0 t0 m ∧ s.setting .bridgeLines = 0 ∧ tc = time) ∨
         ∃ l0 t0 lc absent, (s.apertures.records[c]).life = .bridging l0 t0 m lc tc absent ∧
           s.setting .bridgeLines < absent + 1) →
       (∀ h place, ControlChannel c h place → ∃ x, ControlTaken (s.setting .stepSize) place false (s.half h) x ∧
         s' = { s.setHalf h x with apertures := { s.apertures with records := s'.apertures.records } }) ∧
       (∀ p : Pedal, c = (match p with | .sustain => 6 | .shift => 101) → ∃ x,
         PedalEventTaken s.clock
           { time := timePlus (timePlus tc (100 * (s.setting .perfLatency : Int)))
               (-(1000 * (s.setting .pedalLeadOff : Int)))
             target := 0 } (s.pedal p) x ∧
         s' = { s.setPedal p x with apertures := { s.apertures with records := s'.apertures.records } }) ∧
       (6 < c.val → c.val < 95 → ∀ k, m = some (.key k) → s.queue.status ≠ .waiting →
         (s.owner k ≠ some (rollOwner c) → s' = { s with
           apertures := { s.apertures with records := s'.apertures.records } }) ∧
         (s.owner k = some (rollOwner c) → ∃ p,
           ReleaseStored s.clock (timePlus s.clock (1000 * ((s.voice k).repeatGap : Int)))
             (timePlus tc (100 * (s.setting .perfLatency : Int))) (s.key k).phase p ∧
           s' = { s with
             keys := s.keys.set k { s.key k with phase := p }
             apertures := { s.apertures with records := s'.apertures.records } }))))

/-! ### Expression -/

/-- EXPRESSION_STEP completes: when a step is due, each half's effective level moves to its target by its rate
and never past it, every other field of both halves stands, the next step comes 1000 us later, and nothing
else changes (R64, R65). -/
def Obligations.ExpressionStepCompletes : Prop :=
  ∀ (s a : State) (t due : Time), s.arrive t = a → a.expression.nextStep = some due → reached a.clock due →
    ∃ s', exec (.expressionStep t) s = .next s' ∧
      s' = { a with expression := { bass := s'.half .bass, treble := s'.half .treble
                                    nextStep := some (due + 1000) } } ∧
      ∀ h : Half,
        s'.half h = { a.half h with effective := (s'.half h).effective } ∧
        ((a.half h).crescendo = .none → (a.half h).effective < 16 * (a.half h).base →
          (s'.half h).effective = min (16 * (a.half h).base) ((a.half h).effective + a.setting .slowRate)) ∧
        ((a.half h).crescendo = .none → 16 * (a.half h).base ≤ (a.half h).effective →
          (s'.half h).effective = max (16 * (a.half h).base) ((a.half h).effective - a.setting .slowRate)) ∧
        ((a.half h).crescendo = .slow → (a.half h).effective ≤ 16368 →
          (s'.half h).effective = min 16368 ((a.half h).effective + a.setting .slowRate)) ∧
        ((a.half h).crescendo = .fast ∨ (a.half h).crescendo = .both → (a.half h).effective ≤ 16368 →
          (s'.half h).effective = min 16368 ((a.half h).effective + a.setting .fastRate))

/-- EXPR_SET completes: FIXED with a level in 0..1023 and OFFSET with an offset in -1023..1023 set the mode
and that value and keep the other, ROLL sets the mode alone; all else of both halves and of the part
stands but the answer OK. A half, a mode or a value out of range is refused with BAD_ARGUMENT (R76). -/
def Obligations.ExprSetCompletes : Prop :=
  ∀ (s a : State) (t : Time) (tag : Byte) (half mode : Byte) (value : BitVec 16),
    s.arrive t = a → RequestAtHead a 0x10 tag ([half, mode] ++ field16 value.toNat) →
    (∀ h : Half, halfOfNumber half.toNat = some h →
      (mode = 0 → exec (.exprSet t) s = .next { a.setHalf h { a.half h with mode := .roll } with
        port := answeredPort a.port 0x10 tag .ok [] }) ∧
      (mode = 1 → value.toNat ≤ 1023 →
        exec (.exprSet t) s = .next { a.setHalf h { a.half h with mode := .fixed, fixedLevel := value.toNat } with
          port := answeredPort a.port 0x10 tag .ok [] }) ∧
      (mode = 2 → -1023 ≤ value.toInt → value.toInt ≤ 1023 →
        exec (.exprSet t) s = .next { a.setHalf h { a.half h with mode := .offset, offset := value.toInt } with
          port := answeredPort a.port 0x10 tag .ok [] })) ∧
    ((2 ≤ half.toNat ∨ 3 ≤ mode.toNat ∨ (mode = 1 ∧ 1023 < value.toNat) ∨
        (mode = 2 ∧ (value.toInt < -1023 ∨ 1023 < value.toInt))) →
      exec (.exprSet t) s = .next { a with port := answeredPort a.port 0x10 tag .badArgument [] })

/-! ### Strike computation and launch -/

/-- The strike values of a note with a valid voicing record and settings in range: the velocity code spreads
the levels over VEL_MIN..VEL_MAX, the interval is the largest whose breakpoint velocity is at most the
code, the fraction is the code's place in it and lies in 0..256; the duty is the interpolation of the duty
breakpoints plus the soft trim's share at the SHIFT position, clamped to 1..1023; the flight is the
interpolation of the flight breakpoints and lies between the two; and the planned launch is the sound time
less 100 us a unit of flight (R111 to R115). -/
def Obligations.StrikeValuesInRange : Prop :=
  ∀ (velMin velMax level shift : Nat) (r : VoicingRecord) (sound : Time) (v : StrikeValues),
    r.valid = true → 20 ≤ velMin → velMin ≤ velMax → velMax ≤ 450 → level ≤ 1023 → shift ≤ 1023 →
    strikeValuesOf velMin velMax r shift level sound = v →
    (List.finRange 8).map breakpointVelocity = [20, 40, 70, 110, 160, 220, 300, 450] ∧
    v.velocity = velMin + ((velMax - velMin) * level + 511) / 1023 ∧
    breakpointVelocity v.interval.castSucc ≤ v.velocity ∧
    (∀ j : Fin 7, breakpointVelocity j.castSucc ≤ v.velocity → j ≤ v.interval) ∧
    v.fraction = (v.velocity - breakpointVelocity v.interval.castSucc) * 256 /
      (breakpointVelocity v.interval.succ - breakpointVelocity v.interval.castSucc) ∧
    (v.duty : Int) = max 1 (min 1023 ((r.duties[v.interval.castSucc] : Int)
      + (((r.duties[v.interval.succ] : Int) - r.duties[v.interval.castSucc]) * v.fraction + 128) / 256
      + (r.softTrim * shift + 511) / 1023)) ∧
    (v.flight : Int) = (r.flights[v.interval.castSucc] : Int)
      + (((r.flights[v.interval.succ] : Int) - r.flights[v.interval.castSucc]) * v.fraction + 128) / 256 ∧
    v.fraction ≤ 256 ∧ 1 ≤ v.duty ∧ v.duty ≤ 1023 ∧
    r.flights[v.interval.succ] ≤ v.flight ∧ v.flight ≤ r.flights[v.interval.castSucc] ∧ v.flight ≤ 4000 ∧
    v.planned = sound - BitVec.ofNat 32 (100 * v.flight) ∧ v.shift = shift

/-- A new entry joins an ordered strike queue in order, the lower key first of two with one planned launch,
and every other entry keeps its place among the others (R117). -/
def Obligations.StrikeQueueStaysOrdered : Prop :=
  ∀ (now : Time) (e : QueueEntry) (q : List QueueEntry),
    q.Pairwise (fun x y => standsAfter now x y = false) →
    (placeEntry now e q).Pairwise (fun x y => standsAfter now x y = false) ∧
      (placeEntry now e q).Perm (e :: q) ∧ (e ∉ q → (placeEntry now e q).filter (fun x => x ≠ e) = q)

/-- STRIKE_QUEUE_HEAD_TIMER completes: when the planned launch of a TIMED head has come, its key is cool
enough and neither MUTE nor under QUIET, and its duty fits the free units, the note is launched NORMAL:
the key enters STRIKE with its launch fields, the entry leaves the queue, and the next entry, not come, is
TIMED. No other key and nothing else changes (R118, R119, R124, R130). -/
def Obligations.HeadLaunchedNormal : Prop :=
  ∀ (s a : State) (t : Time) (k : Key) (n : Note) (v : StrikeValues) (planned : Time) (rest : List QueueEntry),
    s.arrive t = a → a.queue.entries = { key := k, planned := planned } :: rest → a.queue.status = .timed →
    (a.key k).phase = .pending n v → (∀ e ∈ rest, e.key ≠ k) → (∀ e, rest.head? = some e → ¬ reached a.clock e.planned) →
    reached a.clock planned → a.heatOf k < a.heat.max → (a.key k).flags.mute = false → a.quiet = false →
    claimSum a + v.duty ≤ a.setting .poolCapacity →
    exec (.strikeQueueHeadTimer t) s = .next { a with
      queue := { entries := rest, status := if rest = [] then .idle else .timed }
      keys := a.keys.set k { a.key k with
        lastLateness := clockDiff a.clock v.planned
        phase := .strike n v
          { actual := a.clock
            limit := timePlus a.clock (100 * (v.flight : Int) + 1000 * (a.setting .strikeMargin : Int))
            mode := .normal
            lateness := clockDiff a.clock v.planned }
          (decide (a.setting .sensing = 1))
          (if a.setting .sensing = 1
            then timePlus a.clock (100 * (v.flight : Int) + 1000 * (a.setting .strikeMargin : Int))
            else timePlus a.clock (100 * (v.flight : Int)))
          none } }

/-- At the head's planned launch, a key at or above HEAT_MAX is launched COOL with lateness 0, one that is
MUTE or under QUIET is launched MUTED, neither asking the pool nor driving; a duty that does not fit the
free units leaves the head WAITING and nothing else changes (R119, R130, R141). -/
def Obligations.HeadLaunchedSilentOrWaits : Prop :=
  ∀ (s a : State) (t : Time) (k : Key) (n : Note) (v : StrikeValues) (planned : Time),
    s.arrive t = a → a.queue.entries = [{ key := k, planned := planned }] → a.queue.status = .timed →
    (a.key k).phase = .pending n v → reached a.clock planned →
    (a.heat.max ≤ a.heatOf k → ∃ s' l, exec (.strikeQueueHeadTimer t) s = .next s' ∧
      (s'.key k).phase = .strike n v l false (timePlus a.clock (100 * (v.flight : Int))) none ∧
      l.mode = .cool ∧ l.lateness = 0 ∧ (s'.key k).lastLateness = 0 ∧ driveLevel s' k = 0 ∧
      s' = { a with keys := a.keys.set k (s'.key k), queue := { entries := [], status := .idle } }) ∧
    (a.heatOf k < a.heat.max → (a.key k).flags.mute = true ∨ a.quiet = true →
      ∃ s' l, exec (.strikeQueueHeadTimer t) s = .next s' ∧
      (s'.key k).phase = .strike n v l false (timePlus a.clock (100 * (v.flight : Int))) none ∧
      l.mode = .muted ∧ l.lateness = clockDiff a.clock v.planned ∧ driveLevel s' k = 0 ∧
      s' = { a with keys := a.keys.set k (s'.key k), queue := { entries := [], status := .idle } }) ∧
    (a.heatOf k < a.heat.max → (a.key k).flags.mute = false → a.quiet = false →
      a.setting .poolCapacity < claimSum a + v.duty → claimSum a ≤ a.setting .poolCapacity →
      exec (.strikeQueueHeadTimer t) s = .next { a with
        queue := { entries := [{ key := k, planned := planned }], status := .waiting } })

/-- STRIKE_END_TIMER_EXPIRY completes: at a sensed strike's limit the miss is counted, and the third retires
the key with reason NO_HAMMER and its notice; a strike that ends without retirement takes its key to
REPEAT when a successor waits, else to DAMP when the release time has come or the key is hot, else to HOLD
with a duty no larger than its record's. An unsensed strike counts no miss (R90, R91, R125, R126, R127). -/
def Obligations.StrikeEndTimerEndsStrike : Prop :=
  ∀ (s a : State) (t e : Time) (k : Key) (n : Note) (v : StrikeValues) (l : Launch) (sensed : Bool)
    (m : Option Note),
    s.arrive t = a → (a.key k).phase = .strike n v l sensed e m → reached a.clock e →
    ∃ s', exec (.strikeEndTimerExpiry t (keyNumber k)) s = .next s' ∧
      (s'.key k).missCount = (a.key k).missCount + (if sensed then 1 else 0) ∧
      (s'.key k).flags = (a.key k).flags ∧ (s'.key k).lastVelocity = (a.key k).lastVelocity ∧
      (∀ j : Key, j ≠ k → isPending (a.key j).phase = false → s'.key j = a.key j) ∧
      s'.heat = a.heat ∧ s'.voicing = a.voicing ∧ s'.pedals = a.pedals ∧ s'.hub = a.hub ∧
      (sensed = true → 2 ≤ (a.key k).missCount → a.port.notices.length < 32 →
        (s'.key k).phase = .retired .noHammer ∧
        s'.port.notices = a.port.notices ++
          [{ kind := .keyRetired, lost := false, time := a.clock
             fields := [byteOf (keyNumber k), 1] ++ fieldOwner (a.owner k) }]) ∧
      (sensed = false ∨ (a.key k).missCount < 2 →
        (∀ x, m = some x →
          (s'.key k).phase = .waiting x (timePlus a.clock (1000 * ((a.voice k).repeatGap : Int)))) ∧
        (∀ r, m = none → n.release = some r → reached a.clock r →
          (s'.key k).phase = .damp (timePlus a.clock (1000 * ((a.voice k).repeatGap : Int)))) ∧
        (m = none → (∀ r, n.release = some r → ¬ reached a.clock r) → a.heat.max ≤ a.heatOf k →
          (s'.key k).phase = .damp (timePlus a.clock (1000 * ((a.voice k).repeatGap : Int)))) ∧
        (m = none → (∀ r, n.release = some r → ¬ reached a.clock r) → a.heatOf k < a.heat.max →
          ∃ d, (s'.key k).phase = .hold n v l d a.clock ∧ d ≤ (a.voice k).holdDuty))

/-- GAP_END completes: at its gap end a key in DAMP returns to IDLE and nothing else changes; a key in REPEAT
becomes PENDING with its successor as its note, at its first level scale, computed afresh and, when its
planned launch has not come, standing in the strike queue (R94, R86, R110). RELEASE_TIME completes: a key
in HOLD whose release time has come enters DAMP with gap end one repeat gap later, its claim ends, and
when the strike queue's head does not wait nothing else changes (R92). -/
def Obligations.GapEndAndReleaseTime : Prop :=
  (∀ (s a : State) (t g : Time) (k : Key), s.arrive t = a → reached a.clock g →
     ((a.key k).phase = .damp g →
       exec (.gapEnd t (keyNumber k)) s = .next { a with
         keys := a.keys.set k { a.key k with phase := .idle } }) ∧
     (∀ m n v, (a.key k).phase = .waiting m g →
       n = { m with level := if m.claimant.source = .cue then min 1023 (m.level * a.contexts.cue.levelScale / 256)
             else m.level } →
       v = strikeValuesOf (a.setting .velMin) (a.setting .velMax) (a.voice k) a.pedals.shift.position n.level n.sound →
       ¬ reached a.clock v.planned → a.queue.entries = [] → a.queue.status = .idle →
       exec (.gapEnd t (keyNumber k)) s = .next { a with
         keys := a.keys.set k { a.key k with phase := .pending n v }
         queue := { entries := [{ key := k, planned := v.planned }], status := .timed } })) ∧
  (∀ (s a : State) (t r : Time) (k : Key) (n : Note) (v : StrikeValues) (l : Launch) (d : Nat) (start : Time),
     s.arrive t = a → (a.key k).phase = .hold n v l d start → n.release = some r → reached a.clock r →
     ∃ s', exec (.releaseTime t (keyNumber k)) s = .next s' ∧
       s'.key k = { a.key k with phase := .damp (timePlus a.clock (1000 * ((a.voice k).repeatGap : Int))) } ∧
       driveLevel s' k = 0 ∧
       (∀ j : Key, j ≠ k → isPending (a.key j).phase = false → s'.key j = a.key j) ∧
       (a.queue.status ≠ .waiting → s' = { a with keys := a.keys.set k (s'.key k) }))

/-- HEAT_STEP completes: when a step is due every key's figure becomes H + d - floor(H/256), held at 262143,
with d its drive level as the step finds it; the working thresholds are the settings; a key in HOLD at or
above HEAT_MAX is cut to DAMP, any other stays in HOLD with a duty no larger than its record's, halved at
HEAT_WARN; the next step comes 1000 us later (R137, R138, R139, R140, R142). -/
def Obligations.HeatStepCompletes : Prop :=
  ∀ (s a : State) (t due : Time), s.arrive t = a → a.heat.nextStep = some due → reached a.clock due →
    ∃ s', exec (.heatStep t) s = .next s' ∧
      s'.heat.nextStep = some (due + 1000) ∧ s'.heat.warn = a.setting .heatWarn ∧
      s'.heat.max = a.setting .heatMax ∧
      (∀ k : Key, s'.heatOf k = min 262143 (a.heatOf k + driveLevel a k - a.heatOf k / 256)) ∧
      (∀ (k : Key) (n : Note) (v : StrikeValues) (l : Launch) (d : Nat) (start : Time),
        (a.key k).phase = .hold n v l d start →
        (a.setting .heatMax ≤ s'.heatOf k →
          (s'.key k).phase = .damp (timePlus a.clock (1000 * ((a.voice k).repeatGap : Int)))) ∧
        (s'.heatOf k < a.setting .heatMax → ∃ d', (s'.key k).phase = .hold n v l d' start ∧
          d' ≤ (if a.setting .heatWarn ≤ s'.heatOf k then (a.voice k).holdDuty / 2 else (a.voice k).holdDuty))) ∧
      (∀ k : Key, isHold (a.key k).phase = false → isPending (a.key k).phase = false → s'.key k = a.key k) ∧
      s'.settings = a.settings ∧ s'.contexts = a.contexts ∧ s'.voicing = a.voicing ∧ s'.pedals = a.pedals ∧
      s'.expression = a.expression ∧ s'.cue = a.cue ∧ s'.clock = a.clock

/-! ### Claims, closes, and the key requests -/

/-- PLAY_OPEN completes, its level given or, for FOLLOW, the output level of the folded key's half. On an IDLE
key: answered OK with the folded key and PENDING, the key is PENDING under the cue id with its scaled
level and its computed strike, and when its planned launch has not come and the strike queue is empty, its
entry stands there and nothing else changes. On a key that another source or cue owns it needs a priority
at least the owner's: below it the answer is OWNED and nothing changes; else a HOLD key enters REPEAT
behind a repeat gap, a STRIKE key keeps its strike, its note released now, and stores the successor, a
REPEAT key replaces its successor and keeps its gap end, and a PENDING key's note is replaced unstruck. A
DAMP key enters REPEAT and keeps its gap end. A RETIRED key is refused with RETIRED, CUE disabled with
NOT_PERMITTED, a folded key outside the key range, a key outside 1..88 and a level that is neither 0..1023
nor FOLLOW with BAD_ARGUMENT, and nothing changes (R95, R81 to R86, R110, R75). -/
def Obligations.PlayOpenCompletes : Prop :=
  (∀ (s a : State) (t sound : Time) (tag cueId : Byte) (key k : Key) (w level : Nat) (n : Note) (v : StrikeValues),
     s.arrive t = a →
     (w ≤ 1023 ∧ level = w ∨ w = 0xFFFF ∧ level = a.output (if keyNumber k ≤ a.setting .splitKey then .bass else .treble)) →
     RequestAtHead a 0x14 tag ([byteOf (keyNumber key), cueId] ++ field16 w ++ fieldTime sound) →
     a.contexts.cue.enabled = true → k = transposedKey a.contexts.cue (keyNumber key) →
     a.contexts.cue.keyLow ≤ keyNumber k → keyNumber k ≤ a.contexts.cue.keyHigh → (a.key k).phase = .idle →
     n = { claimant := { source := .cue, id := cueId }, sound := sound
           level := min 1023 (level * a.contexts.cue.levelScale / 256), release := none } →
     v = strikeValuesOf (a.setting .velMin) (a.setting .velMax) (a.voice k) a.pedals.shift.position n.level sound →
     ¬ reached a.clock v.planned → a.queue.entries = [] → a.queue.status = .idle →
     exec (.playOpen t) s = .next { a with
       keys := a.keys.set k { a.key k with phase := .pending n v }
       queue := { entries := [{ key := k, planned := v.planned }], status := .timed }
       port := answeredPort a.port 0x14 tag .ok [byteOf (keyNumber k), 1] }) ∧
  (∀ (s a : State) (t sound : Time) (tag cueId : Byte) (key k : Key) (w level : Nat) (n : Note) (o : Owner),
     s.arrive t = a →
     (w ≤ 1023 ∧ level = w ∨ w = 0xFFFF ∧ level = a.output (if keyNumber k ≤ a.setting .splitKey then .bass else .treble)) →
     RequestAtHead a 0x14 tag ([byteOf (keyNumber key), cueId] ++ field16 w ++ fieldTime sound) →
     a.contexts.cue.enabled = true → k = transposedKey a.contexts.cue (keyNumber key) →
     a.contexts.cue.keyLow ≤ keyNumber k → keyNumber k ≤ a.contexts.cue.keyHigh → a.owner k = some o →
     n = { claimant := { source := .cue, id := cueId }, sound := sound, level := level, release := none } →
     a.queue.status ≠ .waiting →
     (a.contexts.cue.priority < (a.context o.source).priority →
       exec (.playOpen t) s = .next { a with port := answeredPort a.port 0x14 tag .owned [] }) ∧
     ((a.context o.source).priority ≤ a.contexts.cue.priority → ∀ n0 v0 n1 v1 planned,
       (a.key k).phase = .pending n0 v0 → a.queue.entries = [{ key := k, planned := planned }] →
       n1 = { n with level := min 1023 (level * a.contexts.cue.levelScale / 256) } →
       v1 = strikeValuesOf (a.setting .velMin) (a.setting .velMax) (a.voice k) a.pedals.shift.position n1.level sound →
       ¬ reached a.clock v1.planned →
       exec (.playOpen t) s = .next { a with
         keys := a.keys.set k { a.key k with phase := .pending n1 v1 }
         queue := { entries := [{ key := k, planned := v1.planned }], status := .timed }
         port := answeredPort a.port 0x14 tag .ok [byteOf (keyNumber k), 1] }) ∧
     ((a.context o.source).priority ≤ a.contexts.cue.priority → (∀ e, a.queue.entries.head? = some e → e.key ≠ k) →
       (∀ n0 v l d start, (a.key k).phase = .hold n0 v l d start →
         exec (.playOpen t) s = .next { a with
           keys := a.keys.set k { a.key k with
             phase := .waiting n (timePlus a.clock (1000 * ((a.voice k).repeatGap : Int))) }
           port := answeredPort a.port 0x14 tag .ok [byteOf (keyNumber k), 5] }) ∧
       (∀ n0 v l e te, (a.key k).phase = .strike n0 v l e te none →
         exec (.playOpen t) s = .next { a with
           keys := a.keys.set k { a.key k with
             phase := .strike { n0 with release := some a.clock } v l e te (some n) }
           port := answeredPort a.port 0x14 tag .ok [byteOf (keyNumber k), 2] }) ∧
       (∀ n0 v l e te m, (a.key k).phase = .strike n0 v l e te (some m) →
         exec (.playOpen t) s = .next { a with
           keys := a.keys.set k { a.key k with phase := .strike n0 v l e te (some n) }
           port := answeredPort a.port 0x14 tag .ok [byteOf (keyNumber k), 2] }) ∧
       (∀ m g, (a.key k).phase = .waiting m g →
         exec (.playOpen t) s = .next { a with
           keys := a.keys.set k { a.key k with phase := .waiting n g }
           port := answeredPort a.port 0x14 tag .ok [byteOf (keyNumber k), 5] }))) ∧
  (∀ (s a : State) (t sound g : Time) (tag cueId : Byte) (key k : Key) (w level : Nat), s.arrive t = a →
     (w ≤ 1023 ∧ level = w ∨ w = 0xFFFF ∧ level = a.output (if keyNumber k ≤ a.setting .splitKey then .bass else .treble)) →
     RequestAtHead a 0x14 tag ([byteOf (keyNumber key), cueId] ++ field16 w ++ fieldTime sound) →
     a.contexts.cue.enabled = true → k = transposedKey a.contexts.cue (keyNumber key) →
     a.contexts.cue.keyLow ≤ keyNumber k → keyNumber k ≤ a.contexts.cue.keyHigh → (a.key k).phase = .damp g →
     a.queue.status ≠ .waiting → (∀ e, a.queue.entries.head? = some e → e.key ≠ k) →
     exec (.playOpen t) s = .next { a with
       keys := a.keys.set k { a.key k with
         phase := .waiting
           { claimant := { source := .cue, id := cueId }, sound := sound, level := level, release := none } g }
       port := answeredPort a.port 0x14 tag .ok [byteOf (keyNumber k), 5] }) ∧
  (∀ (s a : State) (t sound : Time) (tag cueId : Byte) (n w : Nat), s.arrive t = a → n < 256 → w < 65536 →
     RequestAtHead a 0x14 tag ([byteOf n, cueId] ++ field16 w ++ fieldTime sound) →
     (n = 0 ∨ 88 < n ∨ (1023 < w ∧ w ≠ 0xFFFF) →
       exec (.playOpen t) s = .next { a with port := answeredPort a.port 0x14 tag .badArgument [] }) ∧
     ∀ key k : Key, n = keyNumber key → w ≤ 1023 ∨ w = 0xFFFF → k = transposedKey a.contexts.cue n →
       (a.contexts.cue.enabled = false →
         exec (.playOpen t) s = .next { a with port := answeredPort a.port 0x14 tag .notPermitted [] }) ∧
       (a.contexts.cue.enabled = true → keyNumber k < a.contexts.cue.keyLow ∨ a.contexts.cue.keyHigh < keyNumber k →
         exec (.playOpen t) s = .next { a with port := answeredPort a.port 0x14 tag .badArgument [] }) ∧
       (a.contexts.cue.enabled = true → a.contexts.cue.keyLow ≤ keyNumber k → keyNumber k ≤ a.contexts.cue.keyHigh →
         isRetired (a.key k).phase = true →
         exec (.playOpen t) s = .next { a with port := answeredPort a.port 0x14 tag .retired [] }))

/-- PLAY_CLOSE completes. With a key: when the cue id owns the folded key the release time, given or NOW, is
stored with its note and the answer is OK; a HOLD key whose release time has come enters DAMP at once;
when it does not own it the answer is NOT_OWNER and nothing changes. With ALL, every key the cue id owns
takes the close, every other key is as it was, and the answer counts the keys closed. A key outside 1..88,
or a time mode that is neither a given time nor NOW, is refused with BAD_ARGUMENT (R96, R87, R88). -/
def Obligations.PlayCloseOfKey : Prop :=
  (∀ (s a : State) (t given release : Time) (tag cueId mode : Byte) (key k : Key),
     s.arrive t = a →
     RequestAtHead a 0x15 tag ([cueId, byteOf (keyNumber key), mode] ++ fieldTime given) →
     (mode = 0 ∧ release = given ∨ mode = 1 ∧ release = a.clock) →
     k = transposedKey a.contexts.cue (keyNumber key) → a.queue.status ≠ .waiting →
     (a.owner k ≠ some { source := .cue, id := cueId } →
       exec (.playClose t) s = .next { a with port := answeredPort a.port 0x15 tag .notOwner [] }) ∧
     (a.owner k = some { source := .cue, id := cueId } → ∃ p, exec (.playClose t) s = .next { a with
         keys := a.keys.set k { a.key k with phase := p }
         port := answeredPort a.port 0x15 tag .ok [] } ∧
       (∀ n v, (a.key k).phase = .pending n v → p = .pending { n with release := some release } v) ∧
       (∀ n v l e te, (a.key k).phase = .strike n v l e te none →
         p = .strike { n with release := some release } v l e te none) ∧
       (∀ n v l e te m, (a.key k).phase = .strike n v l e te (some m) →
         p = .strike n v l e te (some { m with release := some release })) ∧
       (∀ n v l d start, (a.key k).phase = .hold n v l d start → ¬ reached a.clock release →
         p = .hold { n with release := some release } v l d start) ∧
       (∀ n v l d start, (a.key k).phase = .hold n v l d start → reached a.clock release →
         p = .damp (timePlus a.clock (1000 * ((a.voice k).repeatGap : Int)))) ∧
       ∀ m g, (a.key k).phase = .waiting m g → p = .waiting { m with release := some release } g)) ∧
  (∀ (s a : State) (t given release : Time) (tag cueId mode : Byte), s.arrive t = a →
     RequestAtHead a 0x15 tag ([cueId, 0, mode] ++ fieldTime given) →
     (mode = 0 ∧ release = given ∨ mode = 1 ∧ release = a.clock) → a.queue.status ≠ .waiting →
     ∃ keys : Vector KeyRecord 88, exec (.playClose t) s = .next { a with
         keys := keys
         port := answeredPort a.port 0x15 tag .ok [byteOf (allKeys.filter fun k =>
           decide (a.owner k = some { source := .cue, id := cueId })).length] } ∧
       ∀ k : Key,
         (a.owner k ≠ some { source := .cue, id := cueId } → keys[k] = a.key k) ∧
         (a.owner k = some { source := .cue, id := cueId } →
           keys[k] = { a.key k with phase := (keys[k]).phase } ∧
           ReleaseStored a.clock (timePlus a.clock (1000 * ((a.voice k).repeatGap : Int))) release
             (a.key k).phase (keys[k]).phase)) ∧
  (∀ (s a : State) (t given : Time) (tag cueId mode : Byte) (n : Nat), s.arrive t = a → n < 256 →
     RequestAtHead a 0x15 tag ([cueId, byteOf n, mode] ++ fieldTime given) → 88 < n ∨ 1 < mode.toNat →
     exec (.playClose t) s = .next { a with port := answeredPort a.port 0x15 tag .badArgument [] })

/-- PLAY_CANCEL completes: answered OK with the state the key held, a PENDING key of the cue id is IDLE and
its entry out of the queue, a REPEAT key in DAMP keeping its gap end, a STRIKE key has its note released
now or its successor discarded, a HOLD key is in DAMP; with another owner the answer is NOT_OWNER and
nothing changes (R97). -/
def Obligations.PlayCancelCompletes : Prop :=
  ∀ (s a : State) (t : Time) (tag cueId : Byte) (key k : Key), s.arrive t = a →
    RequestAtHead a 0x16 tag [cueId, byteOf (keyNumber key)] →
    k = transposedKey a.contexts.cue (keyNumber key) →
    (a.owner k ≠ some { source := .cue, id := cueId } →
      exec (.playCancel t) s = .next { a with port := answeredPort a.port 0x16 tag .notOwner [] }) ∧
    (a.owner k = some { source := .cue, id := cueId } → ∃ s', exec (.playCancel t) s = .next s' ∧
      s'.port = answeredPort a.port 0x16 tag .ok [byteOf (phaseNumber (a.key k).phase)] ∧
      (∀ e ∈ s'.queue.entries, e.key ≠ k) ∧
      (∀ n v, (a.key k).phase = .pending n v → (s'.key k).phase = .idle) ∧
      (∀ m g, (a.key k).phase = .waiting m g → (s'.key k).phase = .damp g) ∧
      (∀ n v l e te, (a.key k).phase = .strike n v l e te none →
        (s'.key k).phase = .strike { n with release := some a.clock } v l e te none) ∧
      (∀ n v l e te m, (a.key k).phase = .strike n v l e te (some m) →
        (s'.key k).phase = .strike n v l e te none) ∧
      (∀ n v l d start, (a.key k).phase = .hold n v l d start →
        (s'.key k).phase = .damp (timePlus a.clock (1000 * ((a.voice k).repeatGap : Int)))) ∧
      (∀ j : Key, j ≠ k → isPending (a.key j).phase = false → s'.key j = a.key j) ∧
      s'.pedals = a.pedals ∧ s'.cue = a.cue ∧ s'.contexts = a.contexts ∧ s'.heat = a.heat)

/-- ALL_OFF completes: answered OK, PENDING and IDLE keys are IDLE, STRIKE and HOLD keys in DAMP for their
repeat gap, REPEAT and DAMP keys in DAMP keeping their gap end, RETIRED keys unchanged, no key drives, the
strike queue is empty, and both pedals have target 0 and an empty queue whatever their owner (R101, R174).
QUIET_SET completes: ON silences every key, sets QUIET and touches no pedal; OFF clears QUIET and changes
nothing else; both are answered OK, and any other argument BAD_ARGUMENT (R100). -/
def Obligations.AllOffAndQuietSet : Prop :=
  (∀ (s a : State) (t : Time) (tag : Byte), s.arrive t = a → RequestAtHead a 0x17 tag [] →
     ∃ s', exec (.allOff t) s = .next s' ∧
       s' = { a with
         keys := s'.keys
         queue := { entries := [], status := s'.queue.status }
         pedals := { a.pedals with
           sustain := { a.pedals.sustain with events := [], target := 0 }
           shift := { a.pedals.shift with events := [], target := 0 } }
         port := answeredPort a.port 0x17 tag .ok [] } ∧
       (∀ k : Key, s'.key k = { a.key k with phase := (s'.key k).phase } ∧ driveLevel s' k = 0 ∧
         (phaseNumber (a.key k).phase ≤ 1 → (s'.key k).phase = .idle) ∧
         (phaseNumber (a.key k).phase = 2 ∨ phaseNumber (a.key k).phase = 3 →
           (s'.key k).phase = .damp (timePlus a.clock (1000 * ((a.voice k).repeatGap : Int)))) ∧
         (∀ g, (a.key k).phase = .damp g → (s'.key k).phase = .damp g) ∧
         (∀ m g, (a.key k).phase = .waiting m g → (s'.key k).phase = .damp g) ∧
         (∀ r, (a.key k).phase = .retired r → (s'.key k).phase = .retired r))) ∧
  (∀ (s a : State) (t : Time) (tag : Byte), s.arrive t = a →
     (RequestAtHead a 0x18 tag [1] → ∃ s', exec (.quietSet t) s = .next s' ∧
       s' = { a with
         quiet := true
         keys := s'.keys
         queue := { entries := [], status := s'.queue.status }
         port := answeredPort a.port 0x18 tag .ok [] } ∧
       ∀ k : Key, driveLevel s' k = 0 ∧ isPending (s'.key k).phase = false ∧ isHold (s'.key k).phase = false ∧
         s'.owner k = none ∧ (s'.key k).flags = (a.key k).flags) ∧
     (RequestAtHead a 0x18 tag [0] →
       exec (.quietSet t) s = .next { a with quiet := false, port := answeredPort a.port 0x18 tag .ok [] }) ∧
     (∀ b : Byte, 2 ≤ b.toNat → RequestAtHead a 0x18 tag [b] →
       exec (.quietSet t) s = .next { a with port := answeredPort a.port 0x18 tag .badArgument [] }))

/-- KEY_AMEND completes: with no level the flags of the set mask are set and then those of the clear mask
cleared, in every state of the key, and the answer carries them. A newly set MUTE on a strike launched
NORMAL makes it MUTED and unsensed, to end at its launch plus its flight, or now when that has passed: in
REPEAT, DAMP or HOLD, with no miss counted; on a HOLD it makes the note MUTED, however it was launched. A
HOLD that is not HOLD_EXEMPT after the change and whose time has reached HOLD_TIMEOUT enters DAMP with
KEY_HOLD_TIMEOUT. A level given for a key not PENDING is refused with STATE; a level given for the only
PENDING key replaces its note's level and computes it again; a key outside 1..88, a mask with another flag
or a level out of range is refused with BAD_ARGUMENT (R98, R123, R99, R126, R94a, R90, R140). That a flag
in both masks is newly set for none of this, since the flags before and after the request decide, is the
model's reading (log 15). -/
def Obligations.KeyAmendCompletes : Prop :=
  (∀ (s a : State) (t : Time) (tag setMask clearMask : Byte) (k : Key) (f : KeyFlags),
     s.arrive t = a → setMask.toNat < 8 → clearMask.toNat < 8 →
     f = { mute := ((a.key k).flags.mute || setMask.getLsbD 0) && !clearMask.getLsbD 0
           learnExclude := ((a.key k).flags.learnExclude || setMask.getLsbD 1) && !clearMask.getLsbD 1
           holdExempt := ((a.key k).flags.holdExempt || setMask.getLsbD 2) && !clearMask.getLsbD 2 } →
     (RequestAtHead a 0x19 tag [byteOf (keyNumber k), setMask, clearMask, 0xFF, 0xFF] →
       isHold (a.key k).phase = false → phaseNumber (a.key k).phase ≠ 2 → a.queue.status ≠ .waiting →
       exec (.keyAmend t) s = .next { a with
         keys := a.keys.set k { a.key k with flags := f }
         port := answeredPort a.port 0x19 tag .ok [f.toByte] }) ∧
     (∀ level : Nat, level ≤ 1023 →
       RequestAtHead a 0x19 tag ([byteOf (keyNumber k), setMask, clearMask] ++ field16 level) →
       (isPending (a.key k).phase = false →
         exec (.keyAmend t) s = .next { a with port := answeredPort a.port 0x19 tag .state [] }) ∧
       (∀ n v0 v planned, (a.key k).phase = .pending n v0 → a.queue.entries = [{ key := k, planned := planned }] →
         v = strikeValuesOf (a.setting .velMin) (a.setting .velMax) (a.voice k) a.pedals.shift.position level n.sound →
         ¬ reached a.clock v.planned →
         exec (.keyAmend t) s = .next { a with
           keys := a.keys.set k { a.key k with flags := f, phase := .pending { n with level := level } v }
           queue := { entries := [{ key := k, planned := v.planned }], status := .timed }
           port := answeredPort a.port 0x19 tag .ok [f.toByte] })) ∧
     (∀ (due : Time) (newly : Bool), a.queue.status ≠ .waiting → a.port.notices.length < 32 → a.setting .holdTimeout ≤ 255 →
       newly = (f.mute && !(a.key k).flags.mute) →
       RequestAtHead a 0x19 tag [byteOf (keyNumber k), setMask, clearMask, 0xFF, 0xFF] →
       ∃ p gone, exec (.keyAmend t) s = .next { a with
           keys := a.keys.set k { a.key k with flags := f, phase := p }
           port := { answeredPort a.port 0x19 tag .ok [f.toByte] with notices := a.port.notices ++ gone } } ∧
         (∀ n v l e te m, (a.key k).phase = .strike n v l e te m →
           due = timePlus l.actual (100 * (v.flight : Int)) →
           (newly = false ∨ l.mode ≠ .normal → p = (a.key k).phase ∧ gone = []) ∧
           (newly = true → l.mode = .normal →
             (¬ reached a.clock due → p = .strike n v { l with mode := .muted } false due m ∧ gone = []) ∧
             (reached a.clock due →
               (∀ m1, m = some m1 →
                 p = .waiting m1 (timePlus a.clock (1000 * ((a.voice k).repeatGap : Int))) ∧ gone = []) ∧
               (m = none → (∃ r, n.release = some r ∧ reached a.clock r) →
                 p = .damp (timePlus a.clock (1000 * ((a.voice k).repeatGap : Int))) ∧ gone = []) ∧
               (m = none → (∀ r, n.release = some r → ¬ reached a.clock r) →
                 (a.heat.max ≤ a.heatOf k →
                   p = .damp (timePlus a.clock (1000 * ((a.voice k).repeatGap : Int))) ∧
                   gone = [{ kind := .keyThermal, lost := false, time := a.clock
                             fields := [byteOf (keyNumber k)] ++ fieldOwner (some n.claimant)
                               ++ field32 (a.heatOf k) ++ [1] }]) ∧
                 (a.heatOf k < a.heat.max →
                   p = .hold n v { l with mode := .muted }
                     (if a.heat.warn ≤ a.heatOf k then (a.voice k).holdDuty / 2 else (a.voice k).holdDuty) a.clock ∧
                   gone = []))))) ∧
         (∀ n v l d start, (a.key k).phase = .hold n v l d start →
           due = timePlus start (1000000 * (a.setting .holdTimeout : Int)) →
           (a.setting .holdTimeout = 0 ∨ f.holdExempt = true ∨ ¬ reached a.clock due →
             p = .hold n v (if newly = true then { l with mode := .muted } else l) d start ∧
             gone = []) ∧
           (a.setting .holdTimeout ≠ 0 → f.holdExempt = false → reached a.clock due →
             p = .damp (timePlus a.clock (1000 * ((a.voice k).repeatGap : Int))) ∧
             gone = [{ kind := .keyHoldTimeout, lost := false, time := a.clock
                       fields := [byteOf (keyNumber k)] ++ fieldOwner (some n.claimant) ++ fieldTime start }])))) ∧
  (∀ (s a : State) (t : Time) (tag setMask clearMask : Byte) (n w : Nat), s.arrive t = a → n < 256 → w < 65536 →
     RequestAtHead a 0x19 tag ([byteOf n, setMask, clearMask] ++ field16 w) →
     n = 0 ∨ 88 < n ∨ 8 ≤ setMask.toNat ∨ 8 ≤ clearMask.toNat ∨ (1023 < w ∧ w ≠ 0xFFFF) →
     exec (.keyAmend t) s = .next { a with port := answeredPort a.port 0x19 tag .badArgument [] })

/-- KEY_RETIRE completes on a key that is not RETIRED: answered OK, the key is RETIRED with reason HOST and
keeps its flags, miss count and last values, its entry leaves the strike queue, and KEY_RETIRED is raised
with the owner it had; a key already RETIRED is refused with STATE and a number outside 1..88 with
BAD_ARGUMENT (R102, R104). That the second byte of an owner that is none is sent as 0 is the model's
choice (log 13). -/
def Obligations.KeyRetireCompletes : Prop :=
  ∀ (s a : State) (t : Time) (tag : Byte), s.arrive t = a →
    (∀ k : Key, RequestAtHead a 0x1C tag [byteOf (keyNumber k)] →
      (isRetired (a.key k).phase = false → a.port.notices.length < 32 → ∃ s', exec (.keyRetire t) s = .next s' ∧
        s'.key k = { a.key k with phase := .retired .host } ∧ s'.owner k = none ∧ driveLevel s' k = 0 ∧
        (∀ e ∈ s'.queue.entries, e.key ≠ k) ∧
        (∀ j : Key, j ≠ k → isPending (a.key j).phase = false → s'.key j = a.key j) ∧
        s'.heat = a.heat ∧ s'.pedals = a.pedals ∧ s'.cue = a.cue ∧
        s'.port = { answeredPort a.port 0x1C tag .ok [] with notices := a.port.notices ++
          [{ kind := .keyRetired, lost := false, time := a.clock
             fields := [byteOf (keyNumber k), 0] ++ fieldOwner (a.owner k) }] }) ∧
      (isRetired (a.key k).phase = true →
        exec (.keyRetire t) s = .next { a with port := answeredPort a.port 0x1C tag .state [] })) ∧
    (∀ n : Nat, n = 0 ∨ 88 < n → n < 256 → RequestAtHead a 0x1C tag [byteOf n] →
      exec (.keyRetire t) s = .next { a with port := answeredPort a.port 0x1C tag .badArgument [] })

/-- KEY_RESTORE returns a RETIRED key to IDLE, sets its miss count to 0 and is answered OK; its flags, last
measured velocity, last lateness and heat figure are kept, nothing else changes, and the key takes the
claim of an enabled source at once; a key in any other state is refused with STATE, and a key outside
1..88 with BAD_ARGUMENT (R103). -/
def Obligations.KeyRestoreCompletes : Prop :=
  ∀ (s a : State) (t : Time) (tag : Byte), s.arrive t = a →
    (∀ k : Key, RequestAtHead a 0x1D tag [byteOf (keyNumber k)] →
      (∀ r, (a.key k).phase = .retired r → ∃ s', exec (.keyRestore t) s = .next s' ∧
        s' = { a with
          keys := a.keys.set k { a.key k with phase := .idle, missCount := 0 }
          port := answeredPort a.port 0x1D tag .ok [] } ∧
        ∀ c : Claim, c.key = k → (a.context c.claimant.source).enabled = true → (claim c s').2 = .taken 1) ∧
      (isRetired (a.key k).phase = false →
        exec (.keyRestore t) s = .next { a with port := answeredPort a.port 0x1D tag .state [] })) ∧
    (∀ n : Nat, n = 0 ∨ 88 < n → n < 256 → RequestAtHead a 0x1D tag [byteOf n] →
      exec (.keyRestore t) s = .next { a with port := answeredPort a.port 0x1D tag .badArgument [] })


/-! ### Pedals -/

/-- PEDAL_STEP completes: when a step is due, a pedal not in FAULT within the deadband is IDLE at target 0
with drive 0, else HOLDING; one outside it is MOVING from the step's time or its earlier move start, or in
FAULT with drive 0, an empty queue and the notice PEDAL_FAULT once that start lies more than PEDAL_SETTLE
back; owner, target and position stand. In MOVING and HOLDING the drive is the smaller of the request of
R169 and the pedal's drive before with the free units, those of SHIFT as the SUSTAIN pedal left them; and
the next step comes 1000 us later (R168, R169, R170, R133). That the SHIFT pedal finds the units the
SUSTAIN pedal has freed, because a WAITING head is examined only once, after both, is the model's choice
(log 18), and the owner's second byte in the notice is a free value (log 13). -/
def Obligations.PedalStepCompletes : Prop :=
  ∀ (s a : State) (t due : Time), s.arrive t = a → a.pedals.nextStep = some due → reached a.clock due →
    ∃ s', exec (.pedalStep t) s = .next s' ∧ s'.pedals.nextStep = some (due + 1000) ∧
      s'.settings = a.settings ∧ s'.heat = a.heat ∧ s'.contexts = a.contexts ∧ s'.cue = a.cue ∧
      s'.expression = a.expression ∧ s'.voicing = a.voicing ∧
      (a.port.notices.length < 31 → s'.port = { a.port with
        notices := a.port.notices ++ ([.sustain, .shift] : List Pedal).flatMap fun p =>
          match (a.pedal p).mode with
          | .moving start =>
            if a.setting .pedalDeadband < (((a.pedal p).target : Int) - (a.pedal p).position).natAbs ∧
              1000 * (a.setting .pedalSettle : Int) < clockDiff a.clock start
            then [{ kind := .pedalFault, lost := false, time := a.clock
                    fields := [byteOf (pedalNumber p)] ++ fieldPedalOwner p (a.pedal p).owner
                      ++ field16 (a.pedal p).target ++ field16 (a.pedal p).position ++ fieldTime start }]
            else []
          | _ => [] }) ∧
      (∀ k : Key, isPending (a.key k).phase = false → s'.key k = a.key k) ∧
      ∀ (p : Pedal) (err : Int), err = ((a.pedal p).target : Int) - (a.pedal p).position →
        (s'.pedal p).owner = (a.pedal p).owner ∧ (s'.pedal p).target = (a.pedal p).target ∧
        (s'.pedal p).position = (a.pedal p).position ∧ (s'.pedal p).lastReport = (a.pedal p).lastReport ∧
        ((a.pedal p).mode = .fault → s'.pedal p = a.pedal p) ∧
        ((a.pedal p).mode ≠ .fault → err.natAbs ≤ a.setting .pedalDeadband →
          (s'.pedal p).events = (a.pedal p).events ∧
          ((a.pedal p).target = 0 → (s'.pedal p).mode = .idle ∧ (s'.pedal p).drive = 0) ∧
          (0 < (a.pedal p).target → (s'.pedal p).mode = .holding)) ∧
        ((a.pedal p).mode ≠ .fault → a.setting .pedalDeadband < err.natAbs →
          (∀ start, (a.pedal p).mode = .moving start →
            (1000 * (a.setting .pedalSettle : Int) < clockDiff a.clock start →
              (s'.pedal p).mode = .fault ∧ (s'.pedal p).drive = 0 ∧ (s'.pedal p).events = []) ∧
            (clockDiff a.clock start ≤ 1000 * (a.setting .pedalSettle : Int) →
              (s'.pedal p).mode = .moving start ∧ (s'.pedal p).events = (a.pedal p).events)) ∧
          ((a.pedal p).mode = .idle ∨ (a.pedal p).mode = .holding →
            (s'.pedal p).mode = .moving a.clock ∧ (s'.pedal p).events = (a.pedal p).events)) ∧
        ((a.pedal p).mode ≠ .fault → (∃ start, (s'.pedal p).mode = .moving start) ∨ (s'.pedal p).mode = .holding →
          ((s'.pedal p).drive : Int) =
            min (max 0 (min 1023 (((a.setting .pedalHold * (a.pedal p).target / 1023 : Nat) : Int)
                + (a.setting .pedalGain : Int) * err / 8)))
              (((a.pedal p).drive + (a.setting .poolCapacity - match p with
                | .sustain => claimSum a
                | .shift => claimSum a - a.pedals.sustain.drive + s'.pedals.sustain.drive) : Nat) : Int))

/-- PEDAL_FAULT completes: when a servo step is due for a pedal that moves outside its deadband and whose move
start lies more than PEDAL_SETTLE back, the pedal is in FAULT with drive 0 and an empty queue, its owner,
target and position kept, the other pedal stands, and PEDAL_FAULT is raised (R170). That PEDAL_FAULT, a
row of its own, does this for one pedal and leaves the step itself to be taken is the model's choice (log
26), and the owner's second byte in the notice is a free value (log 13). -/
def Obligations.PedalFaultCompletes : Prop :=
  ∀ (s a : State) (t due start : Time) (p : Pedal), s.arrive t = a → a.pedals.nextStep = some due →
    reached a.clock due → (a.pedal p).mode = .moving start →
    a.setting .pedalDeadband < (((a.pedal p).target : Int) - (a.pedal p).position).natAbs →
    1000 * (a.setting .pedalSettle : Int) < clockDiff a.clock start → a.port.notices.length < 32 →
    ∃ s', exec (.pedalFault t p) s = .next s' ∧
      s'.pedal p = { a.pedal p with mode := .fault, drive := 0, events := [] } ∧
      (∀ q : Pedal, q ≠ p → s'.pedal q = a.pedal q) ∧ s'.pedals.nextStep = a.pedals.nextStep ∧
      s'.port = { a.port with notices := a.port.notices ++
        [{ kind := .pedalFault, lost := false, time := a.clock
           fields := [byteOf (pedalNumber p)] ++ fieldPedalOwner p (a.pedal p).owner
             ++ field16 (a.pedal p).target ++ field16 (a.pedal p).position ++ fieldTime start }] } ∧
      (∀ k : Key, isPending (a.key k).phase = false → s'.key k = a.key k) ∧
      s'.settings = a.settings ∧ s'.heat = a.heat ∧ s'.cue = a.cue

/-- PEDAL_EVENT_DUE completes: the entries at the head whose times have come leave the queue in order, the
last of them sets the target, and nothing else changes (R167). -/
def Obligations.PedalEventsApplied : Prop :=
  ∀ (s a : State) (t : Time) (p : Pedal) (due later : List PedalEvent) (e : PedalEvent),
    s.arrive t = a → (a.pedal p).events = due ++ [e] ++ later →
    (∀ x ∈ due, reached a.clock x.time) → reached a.clock e.time →
    (∀ x, later.head? = some x → ¬ reached a.clock x.time) →
    exec (.pedalEventDue t p) s = .next (a.setPedal p { a.pedal p with events := later, target := e.target })

/-- PEDAL_SET completes: on a pedal not in FAULT that CUE owns, or that ROLL owns with a priority not above
the CUE priority, CUE becomes the owner, the queue empties and the target is the position; in FAULT the
answer is STATE, below the ROLL priority OWNED, out of range BAD_ARGUMENT, and nothing changes.
PEDAL_YIELD completes: a CUE-owned pedal goes back to ROLL with an empty queue and the target its PEDAL
aperture gives, answered OK with that target; a ROLL-owned one is answered OK unchanged; in FAULT STATE.
PEDAL_CLEAR_FAULT completes: in FAULT it gives IDLE with target 0; out of FAULT it is refused with STATE
(R171, R173, R176; a ROLL-owned pedal is answered with no data: log 19). -/
def Obligations.PedalRequestsComplete : Prop :=
  (∀ (s a : State) (t : Time) (tag pedal : Byte) (position : Nat), s.arrive t = a → position < 65536 →
     RequestAtHead a 0x20 tag (pedal :: field16 position) →
     ((2 ≤ pedal.toNat ∨ 1023 < position) →
       exec (.pedalSet t) s = .next { a with port := answeredPort a.port 0x20 tag .badArgument [] }) ∧
     ∀ p : Pedal, pedal = byteOf (pedalNumber p) → position ≤ 1023 →
       ((a.pedal p).mode = .fault →
         exec (.pedalSet t) s = .next { a with port := answeredPort a.port 0x20 tag .state [] }) ∧
       ((a.pedal p).mode ≠ .fault → (a.pedal p).owner = .roll → a.contexts.cue.priority < a.contexts.roll.priority →
         exec (.pedalSet t) s = .next { a with port := answeredPort a.port 0x20 tag .owned [] }) ∧
       ((a.pedal p).mode ≠ .fault →
         ((a.pedal p).owner = .cue ∨ a.contexts.roll.priority ≤ a.contexts.cue.priority) →
         exec (.pedalSet t) s = .next
           { a.setPedal p { a.pedal p with owner := .cue, events := [], target := position } with
             port := answeredPort a.port 0x20 tag .ok [] })) ∧
  (∀ (s a : State) (t : Time) (tag : Byte) (p : Pedal) (c : Channel) (target : Nat), s.arrive t = a →
     c = (match p with | .sustain => 6 | .shift => 101) →
     target = (if 2 ≤ lifeNumber (a.apertures.records[c]).life then a.setting .pedalEngagePos else 0) →
     (RequestAtHead a 0x21 tag [byteOf (pedalNumber p)] →
       ((a.pedal p).mode = .fault →
         exec (.pedalYield t) s = .next { a with port := answeredPort a.port 0x21 tag .state [] }) ∧
       ((a.pedal p).mode ≠ .fault → (a.pedal p).owner = .roll →
         exec (.pedalYield t) s = .next { a with port := answeredPort a.port 0x21 tag .ok [] }) ∧
       ((a.pedal p).mode ≠ .fault → (a.pedal p).owner = .cue →
         exec (.pedalYield t) s = .next
           { a.setPedal p { a.pedal p with owner := .roll, events := [], target := target } with
             port := answeredPort a.port 0x21 tag .ok (field16 target) })) ∧
     (RequestAtHead a 0x23 tag [byteOf (pedalNumber p)] →
       ((a.pedal p).mode ≠ .fault →
         exec (.pedalClearFault t) s = .next { a with port := answeredPort a.port 0x23 tag .state [] }) ∧
       ((a.pedal p).mode = .fault →
         exec (.pedalClearFault t) s = .next
           { a.setPedal p { a.pedal p with mode := .idle, target := 0, drive := 0, events := [] } with
             port := answeredPort a.port 0x23 tag .ok [] })))

/-! ### Hammer line -/

/-- HUB_BYTE_RECEIVED and HUB_BURST_END complete: up to three bytes of a burst are gathered, a byte after the
fourth is only noted, and when the line falls idle the burst ends, a short or an overrun one counting once
in HUB_DISCARDED (R144). HUB_REPORT completes for a pedal report: with a good check byte and a position in
0..1023 the pedal's position and last report time are stored in every state of the pedal, a bad check byte
or a position above 1023 counts in HUB_DISCARDED instead, and nothing else changes (R145, R164). -/
def Obligations.HubBytesAndPedalReports : Prop :=
  (∀ (s a : State) (t : Time) (b : Byte), s.arrive t = a → a.loader.ready = true → a.hub.ignoring = false →
     (a.hub.burst.length < 3 →
       exec (.hubByteReceived t b) s = .next { a with hub := { a.hub with burst := a.hub.burst ++ [b] } }) ∧
     (4 ≤ a.hub.burst.length →
       exec (.hubByteReceived t b) s = .next { a with hub := { a.hub with extra := true } }) ∧
     exec (.hubBurstEnd t) s = .next { a with
       hub := { a.hub with
         burst := [], overrun := false, extra := false
         discarded := if 0 < a.hub.burst.length ∧ (a.hub.burst.length < 4 ∨ a.hub.extra = true)
           then min 65535 (a.hub.discarded + 1) else a.hub.discarded } }) ∧
  (∀ (s a : State) (t : Time) (p : Pedal) (b0 b1 b2 b3 : Byte), s.arrive t = a → a.loader.ready = true →
     a.hub.ignoring = false → a.hub.burst = [b0, b1, b2] →
     b0 = (match p with | .sustain => 0xF1 | .shift => 0xF2) →
     (b3 = b0 ^^^ b1 ^^^ b2 → b1.toNat * 256 + b2.toNat ≤ 1023 →
       exec (.hubReport t b3) s = .next
         { a.setPedal p { a.pedal p with position := b1.toNat * 256 + b2.toNat, lastReport := some a.clock } with
           hub := { a.hub with burst := [b0, b1, b2, b3], overrun := true } }) ∧
     (b3 ≠ b0 ^^^ b1 ^^^ b2 ∨ 1023 < b1.toNat * 256 + b2.toNat →
       exec (.hubReport t b3) s = .next { a with
         hub := { a.hub with
           burst := [b0, b1, b2, b3], overrun := true, discarded := min 65535 (a.hub.discarded + 1) } }))

/-- HUB_REPORT completes for a hammer report: an interval outside 250..50000 us counts in HAMMERS_IMPLAUSIBLE
and does nothing else; a valid report of a key not in a sensed strike counts in UNEXPECTED_HAMMERS; one of
a sensed strike whose report time is not before its launch ends the strike with miss count 0 and the
measured velocity; one before its launch retires the key with reason FAULT and measures nothing (R146 to
R149). A strike so ended is learned from when LEARN is on, the key is not LEARN_EXCLUDE, the note was
launched NORMAL and no commit is in flight, and only then (R154). What is learned: below a computed shift
of 64 the two duty breakpoints of the note's interval move by their parts of the velocity error and each
later one is lifted to its lower neighbour (R155), at 960 and above the soft trim moves (R156), between
them neither; at every shift the two flight breakpoints move by their parts of the flight error and each
later one is held to its lower neighbour (R157). -/
def Obligations.HammerReportsEndStrikes : Prop :=
  (∀ (s a : State) (t : Time) (k : Key) (b1 b2 b3 : Byte) (dt : Nat), s.arrive t = a → a.loader.ready = true →
     a.hub.ignoring = false → a.hub.burst = [byteOf (keyNumber k), b1, b2] →
     b3 = byteOf (keyNumber k) ^^^ b1 ^^^ b2 → dt = b1.toNat * 256 + b2.toNat →
     ∃ s', exec (.hubReport t b3) s = .next s' ∧
       (dt < 250 ∨ 50000 < dt →
         s' = { a with hub := { a.hub with
           burst := [byteOf (keyNumber k), b1, b2, b3], overrun := true
           implausible := min 65535 (a.hub.implausible + 1) } }) ∧
       (250 ≤ dt → dt ≤ 50000 →
         (∀ j : Key, j ≠ k → isPending (a.key j).phase = false → s'.key j = a.key j) ∧
         s'.hub.discarded = a.hub.discarded ∧ s'.hub.implausible = a.hub.implausible ∧
         (sensedOf (a.key k).phase ≠ some true → a.queue.status ≠ .waiting →
           s' = { a with hub := { a.hub with
             burst := [byteOf (keyNumber k), b1, b2, b3], overrun := true
             unexpected := min 65535 (a.hub.unexpected + 1) } }) ∧
         ∀ n v l e m, (a.key k).phase = .strike n v l true e m →
           s'.hub.unexpected = a.hub.unexpected ∧
           (clockDiff (timePlus a.clock (-(a.setting .hubLatency : Int))) l.actual < 0 →
             (s'.key k).phase = .retired .fault ∧ (s'.key k).missCount = (a.key k).missCount ∧
             (s'.key k).lastVelocity = (a.key k).lastVelocity ∧ s'.voicing = a.voicing) ∧
           (0 ≤ clockDiff (timePlus a.clock (-(a.setting .hubLatency : Int))) l.actual →
             (s'.key k).missCount = 0 ∧
             (s'.key k).lastVelocity = some (max 1 (min 1023 (a.setting .gateDist * 10000 / dt))) ∧
             phaseNumber (s'.key k).phase ≠ 2 ∧ isRetired (s'.key k).phase = false ∧
             (∀ j : Key, j ≠ k → s'.voice j = a.voice j) ∧
             (a.setting .learn ≠ 1 ∨ (a.key k).flags.learnExclude = true ∨ l.mode ≠ .normal ∨
               a.loader.commit.isSome = true → s'.voicing = a.voicing) ∧
             (a.setting .learn = 1 → (a.key k).flags.learnExclude = false → l.mode = .normal →
               a.loader.commit = none →
               s'.voice k = learnRecord a (max 1 (min 1023 (a.setting .gateDist * 10000 / dt)))
                 (clockDiff (timePlus a.clock (-(a.setting .hubLatency : Int))) l.actual / 100) v (a.voice k))))) ∧
  ∀ (s : State) (mv : Nat) (mf e df : Int) (v : StrikeValues) (r r' : VoicingRecord),
    r' = learnRecord s mv mf v r → e = (v.velocity : Int) - mv → df = mf - v.flight →
    r'.holdDuty = r.holdDuty ∧ r'.repeatGap = r.repeatGap ∧
    (v.shift < 64 → r'.softTrim = r.softTrim ∧ ∃ x : Vector Nat 8,
      x[v.interval.castSucc] = min 1023
        ((r.duties[v.interval.castSucc] : Int)
          + (e * s.setting .learnGainDuty * ((256 - v.fraction : Nat) : Int) + 2048) / 4096).toNat ∧
      x[v.interval.succ] = min 1023
        ((r.duties[v.interval.succ] : Int) + (e * s.setting .learnGainDuty * (v.fraction : Int) + 2048) / 4096).toNat ∧
      (∀ j : Fin 8, j ≠ v.interval.castSucc → j ≠ v.interval.succ → x[j] = r.duties[j]) ∧
      r'.duties[0] = x[0] ∧ ∀ j : Fin 7, r'.duties[j.succ] = max x[j.succ] r'.duties[j.castSucc]) ∧
    (64 ≤ v.shift → r'.duties = r.duties) ∧
    (64 ≤ v.shift → v.shift < 960 → r'.softTrim = r.softTrim) ∧
    (960 ≤ v.shift → r'.softTrim = max (-255) (min 255 (r.softTrim + (e * s.setting .learnGainDuty + 8) / 16))) ∧
    ∃ x : Vector Nat 8,
      x[v.interval.castSucc] = min 4000
        ((r.flights[v.interval.castSucc] : Int)
          + (df * s.setting .learnGainFlight * ((256 - v.fraction : Nat) : Int) + 2048) / 4096).toNat ∧
      x[v.interval.succ] = min 4000
        ((r.flights[v.interval.succ] : Int)
          + (df * s.setting .learnGainFlight * (v.fraction : Int) + 2048) / 4096).toNat ∧
      (∀ j : Fin 8, j ≠ v.interval.castSucc → j ≠ v.interval.succ → x[j] = r.flights[j]) ∧
      r'.flights[0] = x[0] ∧ ∀ j : Fin 7, r'.flights[j.succ] = min x[j.succ] r'.flights[j.castSucc]

/-! ### Cue player and contexts -/

/-- CUE_ENTRY_DUE completes for the entry at the head, due by its own time or its due time, PEDAL_LEAD_ON
before the time of a PEDAL entry and CUE_LOOKAHEAD before any other (R184, R182), with the next entry not
due. It leaves the queue and is applied: END clears phrase open; PEDAL acts as a PEDAL_SET and is counted
in ENTRIES_DROPPED when refused (R186, R172); ON sets phrase open and claims its folded key as a CUE note
with the entry's time and level, FOLLOW taking the output level of the key's half, where an IDLE key is
PENDING with its computed strike and a HOLD or DAMP key waits in REPEAT, and with CUE disabled, the key
out of range or RETIRED or its owner's priority higher it is dropped and counted; OFF closes its folded
key, or every key of its cue id for ALL, with its time (R185). Then CUE_LOW is raised when CUE_LOW entries
are left (R187). When an application of any kind, the last ON, PEDAL or OFF, has left the queue empty with
phrase open set and keys that CUE owns, they are withdrawn, phrase open is cleared and PHRASE_ABORT counts
them (R188); nothing else changes. A head that is not due stays. The application and the underrun, each
with its own examination of a WAITING head, are two events by the model's choice (log 31). -/
def Obligations.CueEntriesApplied : Prop :=
  ∀ (s a b : State) (t due : Time) (e : CueEntry) (rest : List CueEntry) (low : List Notice), s.arrive t = a →
    a.cue.entries = e :: rest →
    due = (match e with
      | .pedal _ _ time => timePlus time (-(1000 * (a.setting .pedalLeadOn : Int)))
      | _ => timePlus e.time (-(1000 * (a.setting .cueLookahead : Int)))) →
    (¬ reached a.clock e.time → ¬ reached a.clock due → exec (.cueEntryDue t) s = .next a) ∧
    (reached a.clock e.time ∨ reached a.clock due →
      (∀ x, rest.head? = some x → ¬ reached a.clock x.time ∧ ¬ reached a.clock (cueDue a x)) →
      (low = [] ∧ rest.length ≠ a.setting .cueLow ∨
        low = [{ kind := .cueLow, lost := false, time := a.clock
                 fields := byteOf rest.length :: fieldOptional 4 (a.cue.orderRef.map fieldTime) }] ∧
          rest.length = a.setting .cueLow ∧ a.port.notices.length < 32) →
      CueApplied e { a with cue := { a.cue with entries := rest } } b →
      (rest ≠ [] ∨ b.cue.phraseOpen = false ∨ (∀ k : Key, ownedBy .cue (b.key k).phase = false) →
        exec (.cueEntryDue t) s = .next { b with port := { b.port with notices := a.port.notices ++ low } }) ∧
      (∀ count : Nat, rest = [] → b.cue.phraseOpen = true →
        count = (allKeys.filter fun k => ownedBy .cue (b.key k).phase).length → 0 < count →
        a.port.notices.length + low.length < 32 →
        ∃ s', exec (.cueEntryDue t) s = .next s' ∧ (∀ k : Key, WithdrawnKey .cue b s' k) ∧
          s' = { b with
            keys := s'.keys
            queue := s'.queue
            cue := { b.cue with phraseOpen := false }
            port := { b.port with notices := a.port.notices ++ low ++
              [{ kind := .phraseAbort, lost := false, time := a.clock, fields := [byteOf count] }] } }))

/-- CUE_PUSH of 1 to 8 entries of any kinds completes. The entries that are taken in turn, each with its
fields in range, its time not earlier than the order reference, and room in the queue of 256, join the
tail, and the last of them is the order reference; the first that is not stops the push with BAD_ARGUMENT,
ORDER or FULL, tested in that order, and it and the rest are discarded; a push that takes all is answered
OK. Every answer carries the number accepted and the count after the push (R183). A push to an empty queue
examines its new head as CUE_ENTRY_DUE does: that this happens after the last entry of the push, and
before the answer whose count is that of the push, is the model's choice (log 14). CUE_FLUSH completes:
the cue queue is empty, phrase open clear and the order reference absent, answered OK with the number of
entries discarded; no key, no pedal and nothing else changes (R189). That a count that can pass 255 takes
two bytes is the model's choice (log 13). -/
def Obligations.CuePushAndFlush : Prop :=
  (∀ (s a : State) (t : Time) (tag cueId : Byte) (taken : List CueEntry) (frames rest : List (List Byte))
     (pushed : CuePlayer) (result : Result), s.arrive t = a →
     RequestAtHead a 0x26 tag (cueId :: (frames ++ rest).flatten) →
     1 ≤ frames.length + rest.length → frames.length + rest.length ≤ 8 → (∀ f ∈ rest, f.length = 7) →
     List.Forall₂ (EntryBytes cueId) taken frames → timesOrdered taken →
     (∀ r e, a.cue.orderRef = some r → taken.head? = some e → 0 ≤ clockDiff e.time r) →
     taken = [] ∨ a.cue.entries.length + taken.length ≤ 256 →
     pushed = { a.cue with
       entries := a.cue.entries ++ taken
       orderRef := match taken.getLast? with
         | some e => some e.time
         | none => a.cue.orderRef } →
     (rest = [] ∧ result = .ok ∨
       ∃ f later, rest = f :: later ∧
         (EntryOutOfRange f ∧ result = .badArgument ∨
           ∃ e, EntryBytes cueId e f ∧
             ((∃ r, pushed.orderRef = some r ∧ clockDiff e.time r < 0) ∧ result = .order ∨
               (∀ r, pushed.orderRef = some r → 0 ≤ clockDiff e.time r) ∧ 256 ≤ pushed.entries.length ∧
                 result = .full))) →
     (a.cue.entries ≠ [] ∨
         (∀ e, taken.head? = some e → ¬ reached a.clock e.time ∧ ¬ reached a.clock (cueDue a e)) →
       exec (.cuePush t) s = .next { a with
         cue := pushed
         port := answeredPort a.port 0x26 tag result (byteOf taken.length :: field16 pushed.entries.length) }) ∧
     (∀ u s', a.cue.entries = [] →
       u.arrive t = { a with cue := pushed, port := { a.port with intake := a.port.intake.tail } } →
       exec (.cueEntryDue t) u = .next s' →
       exec (.cuePush t) s = .next { s' with
         port := { s'.port with
           responses := s'.port.responses ++
             [{ code := 0x26, tag := tag, result := result, overflow := s'.port.overflowPending
                data := byteOf taken.length :: field16 pushed.entries.length }]
           overflowPending := false } })) ∧
  (∀ (s a : State) (t : Time) (tag : Byte), s.arrive t = a → RequestAtHead a 0x27 tag [] →
     exec (.cueFlush t) s = .next { a with
       cue := { a.cue with entries := [], orderRef := none, phraseOpen := false }
       port := answeredPort a.port 0x27 tag .ok (field16 a.cue.entries.length) })

/-- CONTEXT_WRITE completes for a valid block: all six fields of the source's block are replaced and the other
block stands; a disabling withdraws the source's keys; a narrowing without one sends its keys outside the
new range to IDLE or DAMP; a write that does neither touches no key; an invalid block is refused with
BAD_ARGUMENT (R181, R107, R179). -/
def Obligations.ContextWriteCompletes : Prop :=
  ∀ (s a : State) (t : Time) (tag : Byte) (source : Source) (c : ContextBlock), s.arrive t = a →
    c.priority < 256 → -128 ≤ c.transpose → c.transpose ≤ 127 → c.keyLow < 256 → c.keyHigh < 256 →
    c.levelScale < 65536 →
    RequestAtHead a 0x25 tag ([(match source with | .roll => 0 | .cue => 1 : Byte)] ++ fieldBool c.enabled
      ++ [byteOf c.priority, byteOfInt c.transpose, byteOf c.keyLow, byteOf c.keyHigh] ++ field16 c.levelScale) →
    (c.valid = false →
      exec (.contextWrite t) s = .next { a with port := answeredPort a.port 0x25 tag .badArgument [] }) ∧
    (c.valid = true → ∃ s', exec (.contextWrite t) s = .next s' ∧ s'.context source = c ∧
      (∀ other, other ≠ source → s'.context other = a.context other) ∧
      s'.port = answeredPort a.port 0x25 tag .ok [] ∧ s'.pedals = a.pedals ∧ s'.cue = a.cue ∧
      s'.apertures = a.apertures ∧ s'.heat = a.heat ∧ s'.settings = a.settings ∧
      ((a.context source).enabled = true → c.enabled = false → ∀ k : Key, WithdrawnKey source a s' k) ∧
      ((a.context source).enabled = false ∨ c.enabled = true →
        (c.keyLow ≤ (a.context source).keyLow → (a.context source).keyHigh ≤ c.keyHigh →
          s'.keys = a.keys ∧ s'.queue = a.queue) ∧
        ((a.context source).keyLow < c.keyLow ∨ c.keyHigh < (a.context source).keyHigh → ∀ k : Key,
          (ownedBy source (a.key k).phase = true → keyNumber k < c.keyLow ∨ c.keyHigh < keyNumber k →
            (isPending (a.key k).phase = true → (s'.key k).phase = .idle) ∧
            (phaseNumber (a.key k).phase = 2 ∨ phaseNumber (a.key k).phase = 3 →
              (s'.key k).phase = .damp (timePlus a.clock (1000 * ((a.voice k).repeatGap : Int)))) ∧
            ∀ m g, (a.key k).phase = .waiting m g → (s'.key k).phase = .damp g) ∧
          ((ownedBy source (a.key k).phase = false ∨ (c.keyLow ≤ keyNumber k ∧ keyNumber k ≤ c.keyHigh)) →
            isPending (a.key k).phase = false → s'.key k = a.key k))))

/-! ### The host port, the settings, the voicing table and the commit -/

/-- SPI_WRITE_TRANSACTION and SPI_READ_TRANSACTION complete. A write's frame joins the tail of an intake of
fewer than 8 frames; at a full one it is discarded, counted in FRAMES_DISCARDED, and overflow pending is
set. A read sees the oldest response, else the oldest notice, else the byte 01, as chosen at its fall,
followed by 00; the frame leaves its queue at the rise, and only when all its bytes have been clocked out,
whatever has been queued between the two. A transaction of no bytes does nothing, and one in progress
since a full reset is ignored to its end. Nothing else changes (R193, R194). That a read comes as one
command or as two, its fall and its rise, and a transaction in progress at a full reset ends with the
command of its rise, is the model's choice (log 6). -/
def Obligations.TransactionsComplete : Prop :=
  (∀ (s a : State) (t : Time) (b : Byte) (bs : List Byte), s.arrive t = a → b ≠ 0 → a.port.ignoring = false →
     (a.port.intake.length < 8 →
       exec (.spiWriteTransaction t (b :: bs)) s = .next { a with
         port := { a.port with intake := a.port.intake ++ [b :: bs] } }) ∧
     (8 ≤ a.port.intake.length →
       exec (.spiWriteTransaction t (b :: bs)) s = .next { a with
         port := { a.port with
           framesDiscarded := min 65535 (a.port.framesDiscarded + 1), overflowPending := true } })) ∧
  (∀ (s a : State) (t : Time) (bytes : List Byte), s.arrive t = a →
     (a.port.ignoring = true → exec (.spiWriteTransaction t bytes) s = .next { a with
       port := { a.port with reading := none, ignoring := false } }) ∧
     (a.port.ignoring = false → exec (.spiWriteTransaction t []) s = .next a)) ∧
  (∀ (s a : State) (t : Time) (clocked : Nat) (f : List Byte), s.arrive t = a → 0 < clocked →
     f = (match a.port.responses, a.port.notices with
       | r :: _, _ => responseFrame r
       | [], n :: _ => noticeFrame n
       | [], [] => [0x01]) →
     exec (.spiReadTransaction t (.whole clocked)) s = .next { a with
       port := { a.port with
         responses := if f.length ≤ clocked then a.port.responses.tail else a.port.responses
         notices := if f.length ≤ clocked ∧ a.port.responses = [] then a.port.notices.tail else a.port.notices
         reading := none
         ignoring := false
         output := (f ++ List.replicate (clocked - f.length) 0).take clocked } }) ∧
  (∀ (s a : State) (t : Time), s.arrive t = a →
     exec (.spiReadTransaction t .fall) s = .next { a with
       port := { a.port with
         reading := some (match a.port.responses, a.port.notices with
           | r :: _, _ => { choice := .response, frame := responseFrame r }
           | [], n :: _ => { choice := .notice, frame := noticeFrame n }
           | [], [] => { choice := .nothing, frame := [0x01] })
         ignoring := false } } ∧
     (∀ (r : ReadInProgress) (clocked : Nat), a.port.reading = some r → 0 < clocked →
       exec (.spiReadTransaction t (.rise clocked)) s = .next { a with
         port := { a.port with
           responses :=
             if r.choice = .response ∧ r.frame.length ≤ clocked then a.port.responses.tail else a.port.responses
           notices := if r.choice = .notice ∧ r.frame.length ≤ clocked then a.port.notices.tail else a.port.notices
           reading := none
           output := (r.frame ++ List.replicate (clocked - r.frame.length) 0).take clocked } }) ∧
     (∀ clocked, a.port.reading = none ∨ clocked = 0 →
       exec (.spiReadTransaction t (.rise clocked)) s = .next { a with
         port := { a.port with reading := none, ignoring := false } }) ∧
     exec (.spiReadTransaction t (.whole 0)) s = .next { a with
       port := { a.port with reading := none, ignoring := false } })

/-- The reading requests complete: TIME_READ, CONFIG_READ, CONTEXT_READ and VOICE_READ are answered OK with
the value they name and change nothing else; a number out of range is refused with BAD_ARGUMENT (R198,
R199, R180, R160). -/
def Obligations.ValueReadsComplete : Prop :=
  ∀ (s a : State) (t : Time) (tag : Byte), s.arrive t = a →
    (RequestAtHead a 0x02 tag [] →
      exec (.timeRead t) s = .next { a with port := answeredPort a.port 0x02 tag .ok (fieldTime a.clock) }) ∧
    (∀ x : Setting, RequestAtHead a 0x03 tag [byteOf x.row.number] →
      exec (.configRead t) s = .next { a with
        port := answeredPort a.port 0x03 tag .ok (field32 (a.setting x)) }) ∧
    (∀ n : Nat, n = 0 ∨ 43 < n → n < 256 → RequestAtHead a 0x03 tag [byteOf n] →
      exec (.configRead t) s = .next { a with port := answeredPort a.port 0x03 tag .badArgument [] }) ∧
    (∀ source : Source, RequestAtHead a 0x24 tag [(match source with | .roll => 0 | .cue => 1 : Byte)] →
      exec (.contextRead t) s = .next { a with
        port := answeredPort a.port 0x24 tag .ok
          (fieldBool (a.context source).enabled ++ [byteOf (a.context source).priority,
            byteOfInt (a.context source).transpose, byteOf (a.context source).keyLow,
            byteOf (a.context source).keyHigh] ++ field16 (a.context source).levelScale) }) ∧
    (∀ b : Byte, 2 ≤ b.toNat → RequestAtHead a 0x24 tag [b] →
      exec (.contextRead t) s = .next { a with port := answeredPort a.port 0x24 tag .badArgument [] }) ∧
    (∀ k : Key, RequestAtHead a 0x2A tag [byteOf (keyNumber k)] →
      exec (.voiceRead t) s = .next { a with
        port := answeredPort a.port 0x2A tag .ok
          ((a.voice k).duties.toList.flatMap field16 ++ (a.voice k).flights.toList.flatMap field16
            ++ field16 (a.voice k).holdDuty ++ field16Int (a.voice k).softTrim
            ++ field16 (a.voice k).repeatGap) }) ∧
    (∀ n : Nat, n = 0 ∨ 88 < n → n < 256 → RequestAtHead a 0x2A tag [byteOf n] →
      exec (.voiceRead t) s = .next { a with port := answeredPort a.port 0x2A tag .badArgument [] })

/-- STATUS completes in every load state, and ROLL_QUERY, APERTURE_QUERY, EXPR_QUERY, KEY_QUERY, PEDAL_QUERY
and CUE_QUERY when the load is complete: each is answered OK with every field its rule names, in the
rule's order, and changes nothing but the port and, for STATUS, the sampled service pin. A channel above
101, a half or a pedal of 2 or more and a key of 0 or above 88 are refused with BAD_ARGUMENT (R35, R54,
R77, R105, R175, R189, R198). The model's choices (log 13): C, W and counts that can pass 255 in two
bytes, the commit state with the word reached as an enumeration and an optional field, which fields of a
note are optional, a marking sent as 0 when clear and 1 when set, the service pin as 0 when low and 1 when
high, the second byte of an owner that is none sent as 0, and the owner of a pedal with a free second
byte. -/
def Obligations.QueriesComplete : Prop :=
  ∀ (s a : State) (t : Time) (tag : Byte), s.arrive t = a →
    (∀ pin : Bool, a.port.responses.length < 16 → a.port.intake.head? = some (requestFrame 0x01 tag []) →
      exec (.status t pin) s = .next { a with
        servicePin := pin
        port := answeredPort a.port 0x01 tag .ok
          (fieldBool a.loader.ready
            ++ fieldOptional 1 (a.loader.outcome.map fun o =>
                [match o with | .loaded => (0 : Byte) | .absent => 1 | .invalid => 2])
            ++ fieldBool a.loader.commit.isSome
            ++ fieldOptional 2 (a.loader.commit.map fun c => field16 c.wordReached)
            ++ [match a.loader.lastCommit with | .none => (0 : Byte) | .done => 1 | .failed => 2]
            ++ fieldBool pin ++ fieldBool a.quiet
            ++ [byteOf (a.port.intake.length - 1), byteOf a.port.responses.length, byteOf a.port.notices.length]
            ++ field16 a.port.framesDiscarded ++ field16 a.port.noticesDiscarded
            ++ field16 a.hub.discarded ++ field16 a.hub.implausible ++ field16 a.hub.unexpected) }) ∧
    (RequestAtHead a 0x0A tag [] → exec (.rollQuery t) s = .next { a with
      port := answeredPort a.port 0x0A tag .ok
        ([match a.tracker.mode with | .stopped => (0 : Byte) | .seeking => 1 | .locked => 2 | .lost => 3]
          ++ field16 a.tracker.centre ++ field16 a.tracker.width ++ [byteOf a.tracker.lockCount]
          ++ field16 a.scan.linesDropped ++ field16 a.scan.headersCorrected ++ field16 a.scan.segmentsDiscarded
          ++ fieldOptional 4 (a.scan.lastSyncFail.map fun f =>
              fieldLine f.number ++ [byteOf f.required.toNat, byteOf f.delivered.toNat])
          ++ field16 a.apertures.specks ++ field16 a.apertures.notesMasked
          ++ field16 a.apertures.notesOutOfRange) }) ∧
    (∀ (c : Channel) (data : List Byte) (mapping : Option Mapping → List Byte),
      (∀ m, mapping m = fieldOptional 1 (m.map fun x =>
        [match x with | .key k => byteOf (keyNumber k) | .disabled => 0xF0 | .outOfRange => 0xF1])) →
      ((a.apertures.records[c]).life = .empty →
        data = [0] ++ fieldBool (a.apertures.records[c]).blind ++ List.replicate 22 0) →
      (∀ l0 t0 seen, (a.apertures.records[c]).life = .tentative l0 t0 seen →
        data = [1] ++ fieldBool (a.apertures.records[c]).blind ++ [1] ++ fieldLine l0 ++ [1] ++ fieldTime t0
          ++ [1, byteOf seen] ++ List.replicate 12 0) →
      (∀ l0 t0 m, (a.apertures.records[c]).life = .opened l0 t0 m →
        data = [2] ++ fieldBool (a.apertures.records[c]).blind ++ [1] ++ fieldLine l0 ++ [1] ++ fieldTime t0
          ++ [0, 0] ++ mapping m ++ List.replicate 10 0) →
      (∀ l0 t0 m lc tc absent, (a.apertures.records[c]).life = .bridging l0 t0 m lc tc absent →
        data = [3] ++ fieldBool (a.apertures.records[c]).blind ++ [1] ++ fieldLine l0 ++ [1] ++ fieldTime t0
          ++ [0, 0] ++ mapping m ++ [1] ++ fieldLine lc ++ [1] ++ fieldTime tc ++ [1, byteOf absent]) →
      RequestAtHead a 0x0C tag [byteOf c.val] → exec (.apertureQuery t) s = .next { a with
        port := answeredPort a.port 0x0C tag .ok data }) ∧
    (∀ h : Half, RequestAtHead a 0x11 tag [(match h with | .bass => 0 | .treble => 1 : Byte)] →
      exec (.exprQuery t) s = .next { a with
        port := answeredPort a.port 0x11 tag .ok
          ([match (a.half h).mode with | .roll => (0 : Byte) | .fixed => 1 | .offset => 2]
            ++ field16 (a.half h).fixedLevel ++ field16Int (a.half h).offset ++ field16 (a.half h).base
            ++ field16 (a.half h).effective
            ++ [match (a.half h).crescendo with | .none => (0 : Byte) | .slow => 1 | .fast => 2 | .both => 3]
            ++ fieldBool (a.half h).sforzando ++ fieldBool (a.half h).accent
            ++ fieldOptional 4 ((a.half h).latch.map fun l => fieldLine l.start ++ field16 l.level)
            ++ field16 (a.output h)) }) ∧
    (∀ (k : Key) (note : Note → Option StrikeValues → Option Launch → List Byte),
      (∀ n v l, note n v l =
        fieldOwner (some n.claimant) ++ fieldTime n.sound ++ field16 n.level
          ++ fieldOptional 2 (v.map fun x => field16 x.velocity)
          ++ fieldOptional 1 (v.map fun x => [byteOf x.interval.val])
          ++ fieldOptional 2 (v.map fun x => field16 x.fraction) ++ fieldOptional 2 (v.map fun x => field16 x.duty)
          ++ fieldOptional 2 (v.map fun x => field16 x.flight) ++ fieldOptional 4 (v.map fun x => fieldTime x.planned)
          ++ fieldOptional 2 (v.map fun x => field16 x.shift) ++ fieldOptional 4 (n.release.map fieldTime)
          ++ fieldOptional 4 (l.map fun x => fieldTime x.actual) ++ fieldOptional 4 (l.map fun x => fieldTime x.limit)
          ++ fieldOptional 1 (l.map fun x =>
              [match x.mode with | .normal => (0 : Byte) | .muted => 1 | .cool => 2])
          ++ fieldOptional 4 (l.map fun x => field32Int x.lateness)) →
      RequestAtHead a 0x1A tag [byteOf (keyNumber k)] → exec (.keyQuery t) s = .next { a with
        port := answeredPort a.port 0x1A tag .ok
          ([byteOf (phaseNumber (a.key k).phase)] ++ fieldOwner (a.owner k)
            ++ fieldOptional 52 ((noteOf (a.key k).phase).map fun n =>
                note n (valuesOf (a.key k).phase) (launchOf (a.key k).phase))
            ++ fieldOptional 52 ((successorOf (a.key k).phase).map fun m => note m none none)
            ++ fieldOptional 1 ((sensedOf (a.key k).phase).map fieldBool)
            ++ [(if (a.key k).flags.mute then 1 else 0) + (if (a.key k).flags.learnExclude then 2 else 0)
                + (if (a.key k).flags.holdExempt then 4 else 0)]
            ++ field16 (driveLevel a k)
            ++ fieldOptional 2 ((holdOf (a.key k).phase).map fun h => field16 h.1)
            ++ fieldOptional 4 ((holdOf (a.key k).phase).map fun h => fieldTime h.2)
            ++ fieldOptional 4 ((gapEndOf (a.key k).phase).map fieldTime)
            ++ [byteOf (a.key k).missCount]
            ++ fieldOptional 1 ((reasonOf (a.key k).phase).map fun r =>
                [match r with | .host => (0 : Byte) | .noHammer => 1 | .fault => 2])
            ++ fieldOptional 2 ((a.key k).lastVelocity.map field16) ++ field32Int (a.key k).lastLateness
            ++ field32 (a.heatOf k) ++ fieldBool a.quiet) }) ∧
    (∀ p : Pedal, RequestAtHead a 0x22 tag [byteOf (pedalNumber p)] → exec (.pedalQuery t) s = .next { a with
      port := answeredPort a.port 0x22 tag .ok
        ([match (a.pedal p).mode with | .idle => (0 : Byte) | .moving _ => 1 | .holding => 2 | .fault => 3]
          ++ fieldPedalOwner p (a.pedal p).owner ++ field16 (a.pedal p).target ++ field16 (a.pedal p).position
          ++ fieldOptional 4 ((a.pedal p).lastReport.map fieldTime) ++ field16 (a.pedal p).drive
          ++ fieldOptional 4 (match (a.pedal p).mode with | .moving start => some (fieldTime start) | _ => none)
          ++ [byteOf (a.pedal p).events.length]
          ++ (a.pedal p).events.flatMap fun e => fieldTime e.time ++ field16 e.target) }) ∧
    (RequestAtHead a 0x28 tag [] → exec (.cueQuery t) s = .next { a with
      port := answeredPort a.port 0x28 tag .ok
        (field16 a.cue.entries.length ++ fieldBool a.cue.phraseOpen
          ++ fieldOptional 4 (a.cue.entries.head?.map fun e => fieldTime e.time)
          ++ fieldOptional 4 (a.cue.orderRef.map fieldTime) ++ field16 a.cue.dropped) }) ∧
    (∀ n : Nat, 101 < n → n < 256 → RequestAtHead a 0x0C tag [byteOf n] →
      exec (.apertureQuery t) s = .next { a with port := answeredPort a.port 0x0C tag .badArgument [] }) ∧
    (∀ n : Nat, 2 ≤ n → n < 256 →
      (RequestAtHead a 0x11 tag [byteOf n] →
        exec (.exprQuery t) s = .next { a with port := answeredPort a.port 0x11 tag .badArgument [] }) ∧
      (RequestAtHead a 0x22 tag [byteOf n] →
        exec (.pedalQuery t) s = .next { a with port := answeredPort a.port 0x22 tag .badArgument [] })) ∧
    (∀ n : Nat, n = 0 ∨ 88 < n → n < 256 → RequestAtHead a 0x1A tag [byteOf n] →
      exec (.keyQuery t) s = .next { a with port := answeredPort a.port 0x1A tag .badArgument [] })

/-- CONFIG_WRITE completes: a value in range is set, answered OK, no other setting changes, and beside the
sampled service pin only what follows from the setting: none for most; LINE_TIMEOUT 0 stops the line timer
(R15); LANE_ENABLE and the geometry settings restart assembly, at once between lines (R14, R18);
HOLD_TIMEOUT times out each key in HOLD that has reached it (R94a); SENSING OFF makes every sensed strike
unsensed and ends those whose flight has passed (R126, R151); POOL_CAPACITY examines a WAITING head again
(R134); CUE_LOOKAHEAD and PEDAL_LEAD_ON examine the head of the cue queue (R184, R190). A commit in flight
refuses with BUSY, a protected setting with the pin low with NOT_PERMITTED, a number outside 1..43, a
value out of range or out of the order of its pair with BAD_ARGUMENT, VEL_MIN and VEL_MAX with IN_USE
while a key is in PENDING, STRIKE or HOLD, POOL_CAPACITY below the sum of the claims with IN_USE (R199,
R197, R116, R142, R134). The order among keys timed out, and among strikes ended, by one write is the
model's choice (log 30), and so is NOT_PERMITTED before BAD_ARGUMENT for PEDAL_SETTLE (log 32). -/
def Obligations.ConfigWriteCompletes : Prop :=
  (∀ (s a : State) (t : Time) (tag : Byte) (pin : Bool) (n v : Nat), s.arrive t = a → n < 256 → v < 4294967296 →
     RequestAtHead a 0x04 tag (byteOf n :: field32 v) → n = 0 ∨ 43 < n →
     exec (.configWrite t pin) s = .next { a with
       servicePin := pin, port := answeredPort a.port 0x04 tag .badArgument [] }) ∧
  ∀ (s a b : State) (t : Time) (tag : Byte) (pin : Bool) (x : Setting) (v : Nat), s.arrive t = a → v < 4294967296 →
    RequestAtHead a 0x04 tag (byteOf x.row.number :: field32 v) →
    b = { a with
      settings := a.settings.put x v, servicePin := pin, port := answeredPort a.port 0x04 tag .ok [] } →
    (b.setting x = v ∧ ∀ y : Setting, y ≠ x → b.setting y = a.setting y) ∧
    (a.loader.commit.isSome = true →
      exec (.configWrite t pin) s = .next { a with
        servicePin := pin, port := answeredPort a.port 0x04 tag .busy [] }) ∧
    (a.loader.commit = none →
      (x.row.guarded = true → pin = false →
        exec (.configWrite t pin) s = .next { a with
          servicePin := pin, port := answeredPort a.port 0x04 tag .notPermitted [] }) ∧
      (x.row.guarded = false ∨ pin = true →
        ((v < x.row.lo ∨ x.row.hi < v ∨ (x = .velMin ∧ a.setting .velMax ≤ v) ∨ (x = .velMax ∧ v ≤ a.setting .velMin) ∨
            (x = .heatWarn ∧ a.setting .heatMax ≤ v) ∨ (x = .heatMax ∧ v ≤ a.setting .heatWarn)) →
          exec (.configWrite t pin) s = .next { a with
            servicePin := pin, port := answeredPort a.port 0x04 tag .badArgument [] }) ∧
        (x.row.lo ≤ v → v ≤ x.row.hi →
          (x ∉ [.lineTimeout, .holdTimeout, .sensing, .poolCapacity, .cueLookahead, .pedalLeadOn, .laneEnable,
              .edgeRun, .nominalWidth, .widthTol, .spanRatio, .velMin, .velMax] →
            (x = .heatWarn → v < a.setting .heatMax) → (x = .heatMax → a.setting .heatWarn < v) →
            exec (.configWrite t pin) s = .next b) ∧
          (x = .velMin ∧ v < a.setting .velMax ∨ x = .velMax ∧ a.setting .velMin < v →
            ((∃ k : Key, phaseNumber (a.key k).phase ∈ [1, 2, 3]) →
              exec (.configWrite t pin) s = .next { a with
                servicePin := pin, port := answeredPort a.port 0x04 tag .inUse [] }) ∧
            ((∀ k : Key, phaseNumber (a.key k).phase ∉ [1, 2, 3]) → exec (.configWrite t pin) s = .next b)) ∧
          (x = .lineTimeout → exec (.configWrite t pin) s = .next
            (if v = 0 then { b with scan := { a.scan with lineTimer := none } } else b)) ∧
          (x ∈ [.laneEnable, .edgeRun, .nominalWidth, .widthTol, .spanRatio] →
            exec (.configWrite t pin) s = .next { b with
              scan := if a.scan.current = none then { a.scan with restartPending := false, restartMark := true }
                else { a.scan with restartPending := true } }) ∧
          (x = .holdTimeout → a.queue.status ≠ .waiting → ∀ gone : List Key,
            gone = (allKeys.filter fun k => decide (v ≠ 0) && !(a.key k).flags.holdExempt &&
              match holdOf (a.key k).phase with
              | some h => reached a.clock (timePlus h.2 (1000000 * (v : Int)))
              | none => false) →
            a.port.notices.length + gone.length ≤ 32 →
            ∃ keys : Vector KeyRecord 88, exec (.configWrite t pin) s = .next { b with
                keys := keys
                port := { b.port with notices := a.port.notices ++ gone.map fun k =>
                  { kind := .keyHoldTimeout, lost := false, time := a.clock
                    fields := [byteOf (keyNumber k)] ++ fieldOwner (a.owner k)
                      ++ fieldTime (((holdOf (a.key k).phase).map Prod.snd).getD 0) } } } ∧
              ∀ k : Key,
                (k ∈ gone → keys[k] = { a.key k with
                  phase := .damp (timePlus a.clock (1000 * ((a.voice k).repeatGap : Int))) }) ∧
                (k ∉ gone → keys[k] = a.key k)) ∧
          (x = .sensing → v = 1 → exec (.configWrite t pin) s = .next b) ∧
          (x = .sensing → v = 0 → a.queue.status ≠ .waiting →
            ∃ s', exec (.configWrite t pin) s = .next s' ∧
              s' = { b with keys := s'.keys, port := { b.port with
                notices := s'.port.notices, noticesDiscarded := s'.port.noticesDiscarded } } ∧
              ((∀ k : Key, a.heatOf k < a.heat.max) → s'.port = b.port) ∧
              ∀ k : Key,
                (sensedOf (a.key k).phase ≠ some true → s'.key k = a.key k) ∧
                ∀ n v0 l e m due, (a.key k).phase = .strike n v0 l true e m →
                  due = timePlus l.actual (100 * (v0.flight : Int)) →
                  s'.key k = { a.key k with phase := (s'.key k).phase } ∧
                  (¬ reached a.clock due → (s'.key k).phase = .strike n v0 l false due m) ∧
                  (reached a.clock due →
                    (∀ m1, m = some m1 → (s'.key k).phase =
                      .waiting m1 (timePlus a.clock (1000 * ((a.voice k).repeatGap : Int)))) ∧
                    (m = none → (∃ r, n.release = some r ∧ reached a.clock r) ∨ a.heat.max ≤ a.heatOf k →
                      (s'.key k).phase = .damp (timePlus a.clock (1000 * ((a.voice k).repeatGap : Int)))) ∧
                    (m = none → (∀ r, n.release = some r → ¬ reached a.clock r) → a.heatOf k < a.heat.max →
                      ∀ nominal, nominal =
                        (if a.heat.warn ≤ a.heatOf k then (a.voice k).holdDuty / 2 else (a.voice k).holdDuty) →
                      ∃ d, (s'.key k).phase = .hold n v0 l d a.clock ∧ d ≤ nominal ∧
                        (l.mode ≠ .normal ∨ (a.key k).flags.mute = true ∨ a.quiet = true → d = nominal) ∧
                        (l.mode = .normal → (a.key k).flags.mute = false → a.quiet = false →
                          (∀ j : Key, j ≠ k → sensedOf (a.key j).phase ≠ some true) →
                          d = min nominal (v0.duty + (a.setting .poolCapacity - claimSum a)))))) ∧
          (x = .poolCapacity →
            (v < claimSum a → exec (.configWrite t pin) s = .next { a with
              servicePin := pin, port := answeredPort a.port 0x04 tag .inUse [] }) ∧
            (claimSum a ≤ v → a.queue.status ≠ .waiting → exec (.configWrite t pin) s = .next b) ∧
            (claimSum a ≤ v → a.queue.status = .waiting → ∀ k n v0 planned,
              a.queue.entries = [{ key := k, planned := planned }] → (a.key k).phase = .pending n v0 →
              reached a.clock planned → a.heatOf k < a.heat.max → (a.key k).flags.mute = false → a.quiet = false →
              (v < claimSum a + v0.duty → exec (.configWrite t pin) s = .next b) ∧
              (claimSum a + v0.duty ≤ v → ∃ s', exec (.configWrite t pin) s = .next s' ∧
                s' = { b with
                  keys := a.keys.set k { a.key k with
                    phase := (s'.key k).phase, lastLateness := clockDiff a.clock v0.planned }
                  queue := { entries := [], status := .idle } } ∧
                ∃ l e, (s'.key k).phase = .strike n v0 l (decide (a.setting .sensing = 1)) e none ∧
                  l.actual = a.clock ∧ l.mode = .normal))) ∧
          (x = .cueLookahead ∨ x = .pedalLeadOn →
            (a.cue.entries = [] → exec (.configWrite t pin) s = .next b) ∧
            (∀ e rest, a.cue.entries = e :: rest → ¬ reached a.clock e.time → ¬ reached a.clock (cueDue b e) →
              exec (.configWrite t pin) s = .next b) ∧
            ∀ rest time, (∀ e, rest.head? = some e → ¬ reached a.clock e.time ∧ ¬ reached a.clock (cueDue b e)) →
              rest.length ≠ a.setting .cueLow →
              (a.cue.entries = .endPhrase time :: rest →
                reached a.clock time ∨ reached a.clock (timePlus time (-(1000 * (b.setting .cueLookahead : Int)))) →
                exec (.configWrite t pin) s = .next { b with
                  cue := { a.cue with entries := rest, phraseOpen := false } }) ∧
              ∀ p position, a.cue.entries = .pedal p position time :: rest → rest ≠ [] ∨ a.cue.phraseOpen = false →
                reached a.clock time ∨ reached a.clock (timePlus time (-(1000 * (b.setting .pedalLeadOn : Int)))) →
                (a.pedal p).mode ≠ .fault → (a.pedal p).owner = .cue →
                exec (.configWrite t pin) s = .next
                  { b.setPedal p { a.pedal p with events := [], target := position } with
                    cue := { a.cue with entries := rest } }))))

/-- VOICE_WRITE completes for a valid record: the key's record is replaced whole, in every state of the key,
answered OK, and nothing else changes; a commit in flight refuses it with BUSY, an invalid record or a key
outside 1..88 with BAD_ARGUMENT (R161). VOICE_COMMIT completes: with the service pin high and no commit in
flight it is answered OK and a commit is IN_FLIGHT with word reached 0 and a copy of every setting and of
the whole voicing table; with the pin low it is refused with NOT_PERMITTED, else with a commit in flight
with BUSY (R203, R197). The words of the image: the signature 4E38, the length 1828, the flags word 0001,
each setting at its place of the settings table with HEAT_WARN and HEAT_MAX more significant word first,
each record at its 20 words with the spare word FFFF, and the words that are not read FFFF (R203); that a
value whose word would read FFFF is written as it is is the model's reading (log 16). The commit begins
with its first page, one of word 1828 alone, acknowledged when it is sent; that the command carries this
acknowledgement, and how pages are counted, is the model's reading (log 8). -/
def Obligations.VoiceWriteAndCommit : Prop :=
  (∀ (s a : State) (t : Time) (tag : Byte) (k : Key) (r : VoicingRecord) (bytes : List Byte), s.arrive t = a →
     bytes.length = 38 → r = recordOfWords (fun j => valueOf ((bytes.drop (2 * j)).take 2)) →
     RequestAtHead a 0x2B tag (byteOf (keyNumber k) :: bytes) →
     (a.loader.commit.isSome = true →
       exec (.voiceWrite t) s = .next { a with port := answeredPort a.port 0x2B tag .busy [] }) ∧
     (a.loader.commit = none → r.valid = false →
       exec (.voiceWrite t) s = .next { a with port := answeredPort a.port 0x2B tag .badArgument [] }) ∧
     (a.loader.commit = none → r.valid = true →
       exec (.voiceWrite t) s = .next { a with
         voicing := a.voicing.set k r
         port := answeredPort a.port 0x2B tag .ok [] })) ∧
  (∀ (s a : State) (t : Time) (tag : Byte) (bytes : List Byte) (n : Nat), s.arrive t = a → bytes.length = 38 →
     n = 0 ∨ 88 < n → n < 256 → RequestAtHead a 0x2B tag (byteOf n :: bytes) →
     exec (.voiceWrite t) s = .next { a with port := answeredPort a.port 0x2B tag .badArgument [] }) ∧
  (∀ (s a : State) (t : Time) (tag : Byte) (acked : Bool), s.arrive t = a → RequestAtHead a 0x2C tag [] →
     (exec (.voiceCommit t false acked) s = .next { a with
       servicePin := false, port := answeredPort a.port 0x2C tag .notPermitted [] }) ∧
     (a.loader.commit.isSome = true → exec (.voiceCommit t true acked) s = .next { a with
       servicePin := true, port := answeredPort a.port 0x2C tag .busy [] }) ∧
     (a.loader.commit = none → ∃ c, exec (.voiceCommit t true true) s = .next { a with
         servicePin := true
         loader := { a.loader with commit := some c }
         port := answeredPort a.port 0x2C tag .ok [] } ∧
       c.settings = a.settings ∧ c.voicing = a.voicing ∧ c.wordReached = 0 ∧ c.page = 0 ∧ c.cycleStart = a.clock ∧
       c.crc = crc16 (imageBytes fun w => (imageWord a.settings a.voicing w).toNat))) ∧
  (∀ (settings : Settings) (voicing : Vector VoicingRecord 88) (word : Nat → Word16),
     (∀ n, word n = imageWord settings voicing n) →
     word 0 = 0x4E38 ∧ word 1 = 1828 ∧ word 2 = 1 ∧
     (∀ n, 48 ≤ n ∧ n < 64 ∨ 1824 ≤ n ∧ n < 1828 → word n = 0xFFFF) ∧
     (∀ (x : Setting) (first : Nat),
       first = (if x.row.number ≤ 26 then x.row.number + 2 else if x.row.number = 27 then 30 else x.row.number + 4) →
       (x ≠ .heatWarn → x ≠ .heatMax → word first = BitVec.ofNat 16 (settings.get x)) ∧
       (x = .heatWarn ∨ x = .heatMax →
         word first = BitVec.ofNat 16 (settings.get x / 65536) ∧
           word (first + 1) = BitVec.ofNat 16 (settings.get x))) ∧
     ∀ (k : Key) (r : VoicingRecord) (first : Nat), r = voicing[k] → first = 64 + 20 * (keyNumber k - 1) →
       (∀ j : Fin 8, word (first + j.val) = BitVec.ofNat 16 r.duties[j] ∧
         word (first + 8 + j.val) = BitVec.ofNat 16 r.flights[j]) ∧
       word (first + 16) = BitVec.ofNat 16 r.holdDuty ∧ word (first + 17) = BitVec.ofInt 16 r.softTrim ∧
       word (first + 18) = BitVec.ofNat 16 r.repeatGap ∧ word (first + 19) = 0xFFFF)

/-- COMMIT_PAGE_WRITTEN and COMMIT_ACK_TIMEOUT complete. A page written leaves its words in the EEPROM and
every other word as it was: the first page word 1828 with the complement of the new CRC, pages 1 to 115
the words 0 to 1827 sixteen to a page, the last page word 1828 with the CRC. With the next page
acknowledged when it is sent the commit goes on to it with the word reached the last word written; with it
not acknowledged the commit ends with FAILED and COMMIT_FAILED with that word; the last page ends it with
DONE and COMMIT_DONE; 20 ms from a cycle's start without an acknowledgement end it with FAILED, the EEPROM
as it was and the word reached before (R204). What the commands' two acknowledgements are, the pages of 16
words and that a page counts for the word reached when its write cycle completes are the model's reading
(log 8). -/
def Obligations.CommitPagesWritten : Prop :=
  ∀ (s a : State) (t : Time) (c : Commit) (page wordReached : Nat), s.arrive t = a → a.loader.commit = some c →
    EepromSafe a → c.page = page →
    wordReached = (if page = 0 then 1828 else min (16 * page - 1) 1827) →
    (page ≤ 115 → ∃ m,
      (page = 0 → Memory.word m 1828 = (~~~c.crc).toNat ∧
        ∀ w, w ≠ 1828 → Memory.word m w = Memory.word a.loader.eeprom w) ∧
      (1 ≤ page →
        (∀ w, 16 * (page - 1) ≤ w → w < 16 * page → w < 1828 →
          Memory.word m w = (imageWord c.settings c.voicing w).toNat) ∧
        ∀ w, w < 16 * (page - 1) ∨ 16 * page ≤ w ∨ 1828 ≤ w →
          Memory.word m w = Memory.word a.loader.eeprom w) ∧
      exec (.commitPageWritten t true) s = .next { a with
        loader := { a.loader with
          eeprom := m
          commit := some { c with page := page + 1, cycleStart := a.clock, wordReached := wordReached } } } ∧
      (a.port.notices.length < 32 →
        exec (.commitPageWritten t false) s = .next { a with
          loader := { a.loader with eeprom := m, commit := none, lastCommit := .failed }
          port := { a.port with notices := a.port.notices ++
            [{ kind := .commitFailed, lost := false, time := a.clock, fields := field16 wordReached }] } })) ∧
    (page = 116 → a.port.notices.length < 32 → ∀ acked, ∃ m,
      Memory.word m 1828 = c.crc.toNat ∧ (∀ w, w ≠ 1828 → Memory.word m w = Memory.word a.loader.eeprom w) ∧
      exec (.commitPageWritten t acked) s = .next { a with
        loader := { a.loader with eeprom := m, commit := none, lastCommit := .done }
        port := { a.port with notices := a.port.notices ++
          [{ kind := .commitDone, lost := false, time := a.clock, fields := [] }] } }) ∧
    (reached a.clock (timePlus c.cycleStart 20000) → a.port.notices.length < 32 →
      exec (.commitAckTimeout t) s = .next { a with
        loader := { a.loader with commit := none, lastCommit := .failed }
        port := { a.port with notices := a.port.notices ++
          [{ kind := .commitFailed, lost := false, time := a.clock, fields := field16 c.wordReached }] } }) ∧
    (¬ reached a.clock (timePlus c.cycleStart 20000) → exec (.commitAckTimeout t) s = .next a)
end

