-- ==== Sys2Proof/Laws/State.lean ====
section
/-! SUPPORT. One lemma per field per update of the state, so that no later proof unfolds an update. -/

namespace Sys2Proof.Machine

variable (s : State)

/-! ### `State.atTime` -/

@[simp] theorem State.atTime_servicePin (t : Time) : (s.atTime t).servicePin = s.servicePin := rfl
@[simp] theorem State.atTime_settings (t : Time) : (s.atTime t).settings = s.settings := rfl
@[simp] theorem State.atTime_scan (t : Time) : (s.atTime t).scan = s.scan := rfl
@[simp] theorem State.atTime_tracker (t : Time) : (s.atTime t).tracker = s.tracker := rfl
@[simp] theorem State.atTime_apertures (t : Time) : (s.atTime t).apertures = s.apertures := rfl
@[simp] theorem State.atTime_expression (t : Time) : (s.atTime t).expression = s.expression := rfl
@[simp] theorem State.atTime_contexts (t : Time) : (s.atTime t).contexts = s.contexts := rfl
@[simp] theorem State.atTime_keys (t : Time) : (s.atTime t).keys = s.keys := rfl
@[simp] theorem State.atTime_quiet (t : Time) : (s.atTime t).quiet = s.quiet := rfl
@[simp] theorem State.atTime_queue (t : Time) : (s.atTime t).queue = s.queue := rfl
@[simp] theorem State.atTime_heat (t : Time) : (s.atTime t).heat = s.heat := rfl
@[simp] theorem State.atTime_hub (t : Time) : (s.atTime t).hub = s.hub := rfl
@[simp] theorem State.atTime_voicing (t : Time) : (s.atTime t).voicing = s.voicing := rfl
@[simp] theorem State.atTime_pedals (t : Time) : (s.atTime t).pedals = s.pedals := rfl
@[simp] theorem State.atTime_cue (t : Time) : (s.atTime t).cue = s.cue := rfl
@[simp] theorem State.atTime_port (t : Time) : (s.atTime t).port = s.port := rfl
@[simp] theorem State.atTime_loader (t : Time) : (s.atTime t).loader = s.loader := rfl
@[simp] theorem State.atTime_openCount (t : Time) : (s.atTime t).openCount = s.openCount := rfl
@[simp] theorem State.atTime_pending (t : Time) : (s.atTime t).pending = s.pending := rfl
@[simp] theorem State.atTime_key (t : Time) (j : Key) : (s.atTime t).key j = s.key j := rfl
@[simp] theorem State.atTime_voice (t : Time) (j : Key) : (s.atTime t).voice j = s.voice j := rfl
@[simp] theorem State.atTime_heatOf (t : Time) (j : Key) : (s.atTime t).heatOf j = s.heatOf j := rfl
@[simp] theorem State.atTime_context (t : Time) (o' : Source) : (s.atTime t).context o' = s.context o' :=
  by cases o' <;> rfl
@[simp] theorem State.atTime_half (t : Time) (h' : Half) : (s.atTime t).half h' = s.half h' :=
  by cases h' <;> rfl
@[simp] theorem State.atTime_pedal (t : Time) (p' : Pedal) : (s.atTime t).pedal p' = s.pedal p' :=
  by cases p' <;> rfl
@[simp] theorem State.atTime_setting (t : Time) (y : Setting) : (s.atTime t).setting y = s.setting y := rfl
@[simp] theorem State.atTime_owner (t : Time) (j : Key) : (s.atTime t).owner j = s.owner j := rfl
@[simp] theorem State.atTime_clock (t : Time) : (s.atTime t).clock = t := rfl

/-! ### `State.setKey` -/

@[simp] theorem State.setKey_clock (k : Key) (r : KeyRecord) : (s.setKey k r).clock = s.clock := rfl
@[simp] theorem State.setKey_servicePin (k : Key) (r : KeyRecord) : (s.setKey k r).servicePin = s.servicePin :=
  rfl
@[simp] theorem State.setKey_settings (k : Key) (r : KeyRecord) : (s.setKey k r).settings = s.settings := rfl
@[simp] theorem State.setKey_scan (k : Key) (r : KeyRecord) : (s.setKey k r).scan = s.scan := rfl
@[simp] theorem State.setKey_tracker (k : Key) (r : KeyRecord) : (s.setKey k r).tracker = s.tracker := rfl
@[simp] theorem State.setKey_apertures (k : Key) (r : KeyRecord) : (s.setKey k r).apertures = s.apertures :=
  rfl
@[simp] theorem State.setKey_expression (k : Key) (r : KeyRecord) : (s.setKey k r).expression = s.expression :=
  rfl
@[simp] theorem State.setKey_contexts (k : Key) (r : KeyRecord) : (s.setKey k r).contexts = s.contexts := rfl
@[simp] theorem State.setKey_quiet (k : Key) (r : KeyRecord) : (s.setKey k r).quiet = s.quiet := rfl
@[simp] theorem State.setKey_queue (k : Key) (r : KeyRecord) : (s.setKey k r).queue = s.queue := rfl
@[simp] theorem State.setKey_heat (k : Key) (r : KeyRecord) : (s.setKey k r).heat = s.heat := rfl
@[simp] theorem State.setKey_hub (k : Key) (r : KeyRecord) : (s.setKey k r).hub = s.hub := rfl
@[simp] theorem State.setKey_voicing (k : Key) (r : KeyRecord) : (s.setKey k r).voicing = s.voicing := rfl
@[simp] theorem State.setKey_pedals (k : Key) (r : KeyRecord) : (s.setKey k r).pedals = s.pedals := rfl
@[simp] theorem State.setKey_cue (k : Key) (r : KeyRecord) : (s.setKey k r).cue = s.cue := rfl
@[simp] theorem State.setKey_port (k : Key) (r : KeyRecord) : (s.setKey k r).port = s.port := rfl
@[simp] theorem State.setKey_loader (k : Key) (r : KeyRecord) : (s.setKey k r).loader = s.loader := rfl
@[simp] theorem State.setKey_openCount (k : Key) (r : KeyRecord) : (s.setKey k r).openCount = s.openCount :=
  rfl
@[simp] theorem State.setKey_pending (k : Key) (r : KeyRecord) : (s.setKey k r).pending = s.pending := rfl
@[simp] theorem State.setKey_voice (k : Key) (r : KeyRecord) (j : Key) : (s.setKey k r).voice j = s.voice j :=
  rfl
@[simp] theorem State.setKey_heatOf (k : Key) (r : KeyRecord) (j : Key) : (s.setKey k r).heatOf j = s.heatOf j :=
  rfl
@[simp] theorem State.setKey_context (k : Key) (r : KeyRecord) (o' : Source) : (s.setKey k r).context o' = s.context o' :=
  by cases o' <;> rfl
@[simp] theorem State.setKey_half (k : Key) (r : KeyRecord) (h' : Half) : (s.setKey k r).half h' = s.half h' :=
  by cases h' <;> rfl
@[simp] theorem State.setKey_pedal (k : Key) (r : KeyRecord) (p' : Pedal) : (s.setKey k r).pedal p' = s.pedal p' :=
  by cases p' <;> rfl
@[simp] theorem State.setKey_setting (k : Key) (r : KeyRecord) (y : Setting) : (s.setKey k r).setting y = s.setting y :=
  rfl
@[simp] theorem State.setKey_keys (k : Key) (r : KeyRecord) : (s.setKey k r).keys = s.keys.set k r := rfl

/-! ### `State.setPhase` -/

@[simp] theorem State.setPhase_clock (k : Key) (p : KeyPhase) : (s.setPhase k p).clock = s.clock := rfl
@[simp] theorem State.setPhase_servicePin (k : Key) (p : KeyPhase) : (s.setPhase k p).servicePin = s.servicePin :=
  rfl
@[simp] theorem State.setPhase_settings (k : Key) (p : KeyPhase) : (s.setPhase k p).settings = s.settings :=
  rfl
@[simp] theorem State.setPhase_scan (k : Key) (p : KeyPhase) : (s.setPhase k p).scan = s.scan := rfl
@[simp] theorem State.setPhase_tracker (k : Key) (p : KeyPhase) : (s.setPhase k p).tracker = s.tracker := rfl
@[simp] theorem State.setPhase_apertures (k : Key) (p : KeyPhase) : (s.setPhase k p).apertures = s.apertures :=
  rfl
@[simp] theorem State.setPhase_expression (k : Key) (p : KeyPhase) : (s.setPhase k p).expression = s.expression :=
  rfl
@[simp] theorem State.setPhase_contexts (k : Key) (p : KeyPhase) : (s.setPhase k p).contexts = s.contexts :=
  rfl
@[simp] theorem State.setPhase_quiet (k : Key) (p : KeyPhase) : (s.setPhase k p).quiet = s.quiet := rfl
@[simp] theorem State.setPhase_queue (k : Key) (p : KeyPhase) : (s.setPhase k p).queue = s.queue := rfl
@[simp] theorem State.setPhase_heat (k : Key) (p : KeyPhase) : (s.setPhase k p).heat = s.heat := rfl
@[simp] theorem State.setPhase_hub (k : Key) (p : KeyPhase) : (s.setPhase k p).hub = s.hub := rfl
@[simp] theorem State.setPhase_voicing (k : Key) (p : KeyPhase) : (s.setPhase k p).voicing = s.voicing := rfl
@[simp] theorem State.setPhase_pedals (k : Key) (p : KeyPhase) : (s.setPhase k p).pedals = s.pedals := rfl
@[simp] theorem State.setPhase_cue (k : Key) (p : KeyPhase) : (s.setPhase k p).cue = s.cue := rfl
@[simp] theorem State.setPhase_port (k : Key) (p : KeyPhase) : (s.setPhase k p).port = s.port := rfl
@[simp] theorem State.setPhase_loader (k : Key) (p : KeyPhase) : (s.setPhase k p).loader = s.loader := rfl
@[simp] theorem State.setPhase_openCount (k : Key) (p : KeyPhase) : (s.setPhase k p).openCount = s.openCount :=
  rfl
@[simp] theorem State.setPhase_pending (k : Key) (p : KeyPhase) : (s.setPhase k p).pending = s.pending := rfl
@[simp] theorem State.setPhase_voice (k : Key) (p : KeyPhase) (j : Key) : (s.setPhase k p).voice j = s.voice j :=
  rfl
@[simp] theorem State.setPhase_heatOf (k : Key) (p : KeyPhase) (j : Key) : (s.setPhase k p).heatOf j = s.heatOf j :=
  rfl
@[simp] theorem State.setPhase_context (k : Key) (p : KeyPhase) (o' : Source) : (s.setPhase k p).context o' = s.context o' :=
  by cases o' <;> rfl
@[simp] theorem State.setPhase_half (k : Key) (p : KeyPhase) (h' : Half) : (s.setPhase k p).half h' = s.half h' :=
  by cases h' <;> rfl
@[simp] theorem State.setPhase_pedal (k : Key) (p : KeyPhase) (p' : Pedal) : (s.setPhase k p).pedal p' = s.pedal p' :=
  by cases p' <;> rfl
@[simp] theorem State.setPhase_setting (k : Key) (p : KeyPhase) (y : Setting) : (s.setPhase k p).setting y = s.setting y :=
  rfl
@[simp] theorem State.setPhase_keys (k : Key) (p : KeyPhase) : (s.setPhase k p).keys = s.keys.set k { s.key k with phase := p } :=
  rfl

/-! ### `State.setHalf` -/

@[simp] theorem State.setHalf_clock (h : Half) (c : HalfContext) : (s.setHalf h c).clock = s.clock :=
  by cases h <;> rfl
@[simp] theorem State.setHalf_servicePin (h : Half) (c : HalfContext) : (s.setHalf h c).servicePin = s.servicePin :=
  by cases h <;> rfl
@[simp] theorem State.setHalf_settings (h : Half) (c : HalfContext) : (s.setHalf h c).settings = s.settings :=
  by cases h <;> rfl
@[simp] theorem State.setHalf_scan (h : Half) (c : HalfContext) : (s.setHalf h c).scan = s.scan :=
  by cases h <;> rfl
@[simp] theorem State.setHalf_tracker (h : Half) (c : HalfContext) : (s.setHalf h c).tracker = s.tracker :=
  by cases h <;> rfl
@[simp] theorem State.setHalf_apertures (h : Half) (c : HalfContext) : (s.setHalf h c).apertures = s.apertures :=
  by cases h <;> rfl
@[simp] theorem State.setHalf_contexts (h : Half) (c : HalfContext) : (s.setHalf h c).contexts = s.contexts :=
  by cases h <;> rfl
@[simp] theorem State.setHalf_keys (h : Half) (c : HalfContext) : (s.setHalf h c).keys = s.keys :=
  by cases h <;> rfl
@[simp] theorem State.setHalf_quiet (h : Half) (c : HalfContext) : (s.setHalf h c).quiet = s.quiet :=
  by cases h <;> rfl
@[simp] theorem State.setHalf_queue (h : Half) (c : HalfContext) : (s.setHalf h c).queue = s.queue :=
  by cases h <;> rfl
@[simp] theorem State.setHalf_heat (h : Half) (c : HalfContext) : (s.setHalf h c).heat = s.heat :=
  by cases h <;> rfl
@[simp] theorem State.setHalf_hub (h : Half) (c : HalfContext) : (s.setHalf h c).hub = s.hub :=
  by cases h <;> rfl
@[simp] theorem State.setHalf_voicing (h : Half) (c : HalfContext) : (s.setHalf h c).voicing = s.voicing :=
  by cases h <;> rfl
@[simp] theorem State.setHalf_pedals (h : Half) (c : HalfContext) : (s.setHalf h c).pedals = s.pedals :=
  by cases h <;> rfl
@[simp] theorem State.setHalf_cue (h : Half) (c : HalfContext) : (s.setHalf h c).cue = s.cue :=
  by cases h <;> rfl
@[simp] theorem State.setHalf_port (h : Half) (c : HalfContext) : (s.setHalf h c).port = s.port :=
  by cases h <;> rfl
@[simp] theorem State.setHalf_loader (h : Half) (c : HalfContext) : (s.setHalf h c).loader = s.loader :=
  by cases h <;> rfl
@[simp] theorem State.setHalf_openCount (h : Half) (c : HalfContext) : (s.setHalf h c).openCount = s.openCount :=
  by cases h <;> rfl
@[simp] theorem State.setHalf_pending (h : Half) (c : HalfContext) : (s.setHalf h c).pending = s.pending :=
  by cases h <;> rfl
@[simp] theorem State.setHalf_key (h : Half) (c : HalfContext) (j : Key) : (s.setHalf h c).key j = s.key j :=
  by cases h <;> rfl
@[simp] theorem State.setHalf_voice (h : Half) (c : HalfContext) (j : Key) : (s.setHalf h c).voice j = s.voice j :=
  by cases h <;> rfl
@[simp] theorem State.setHalf_heatOf (h : Half) (c : HalfContext) (j : Key) : (s.setHalf h c).heatOf j = s.heatOf j :=
  by cases h <;> rfl
@[simp] theorem State.setHalf_context (h : Half) (c : HalfContext) (o' : Source) : (s.setHalf h c).context o' = s.context o' :=
  by cases h <;> cases o' <;> rfl
@[simp] theorem State.setHalf_pedal (h : Half) (c : HalfContext) (p' : Pedal) : (s.setHalf h c).pedal p' = s.pedal p' :=
  by cases h <;> cases p' <;> rfl
@[simp] theorem State.setHalf_setting (h : Half) (c : HalfContext) (y : Setting) : (s.setHalf h c).setting y = s.setting y :=
  by cases h <;> rfl
@[simp] theorem State.setHalf_owner (h : Half) (c : HalfContext) (j : Key) : (s.setHalf h c).owner j = s.owner j :=
  by cases h <;> rfl

/-! ### `State.setPedal` -/

@[simp] theorem State.setPedal_clock (p : Pedal) (r : PedalRecord) : (s.setPedal p r).clock = s.clock :=
  by cases p <;> rfl
@[simp] theorem State.setPedal_servicePin (p : Pedal) (r : PedalRecord) : (s.setPedal p r).servicePin = s.servicePin :=
  by cases p <;> rfl
@[simp] theorem State.setPedal_settings (p : Pedal) (r : PedalRecord) : (s.setPedal p r).settings = s.settings :=
  by cases p <;> rfl
@[simp] theorem State.setPedal_scan (p : Pedal) (r : PedalRecord) : (s.setPedal p r).scan = s.scan :=
  by cases p <;> rfl
@[simp] theorem State.setPedal_tracker (p : Pedal) (r : PedalRecord) : (s.setPedal p r).tracker = s.tracker :=
  by cases p <;> rfl
@[simp] theorem State.setPedal_apertures (p : Pedal) (r : PedalRecord) : (s.setPedal p r).apertures = s.apertures :=
  by cases p <;> rfl
@[simp] theorem State.setPedal_expression (p : Pedal) (r : PedalRecord) : (s.setPedal p r).expression = s.expression :=
  by cases p <;> rfl
@[simp] theorem State.setPedal_contexts (p : Pedal) (r : PedalRecord) : (s.setPedal p r).contexts = s.contexts :=
  by cases p <;> rfl
@[simp] theorem State.setPedal_keys (p : Pedal) (r : PedalRecord) : (s.setPedal p r).keys = s.keys :=
  by cases p <;> rfl
@[simp] theorem State.setPedal_quiet (p : Pedal) (r : PedalRecord) : (s.setPedal p r).quiet = s.quiet :=
  by cases p <;> rfl
@[simp] theorem State.setPedal_queue (p : Pedal) (r : PedalRecord) : (s.setPedal p r).queue = s.queue :=
  by cases p <;> rfl
@[simp] theorem State.setPedal_heat (p : Pedal) (r : PedalRecord) : (s.setPedal p r).heat = s.heat :=
  by cases p <;> rfl
@[simp] theorem State.setPedal_hub (p : Pedal) (r : PedalRecord) : (s.setPedal p r).hub = s.hub :=
  by cases p <;> rfl
@[simp] theorem State.setPedal_voicing (p : Pedal) (r : PedalRecord) : (s.setPedal p r).voicing = s.voicing :=
  by cases p <;> rfl
@[simp] theorem State.setPedal_cue (p : Pedal) (r : PedalRecord) : (s.setPedal p r).cue = s.cue :=
  by cases p <;> rfl
@[simp] theorem State.setPedal_port (p : Pedal) (r : PedalRecord) : (s.setPedal p r).port = s.port :=
  by cases p <;> rfl
@[simp] theorem State.setPedal_loader (p : Pedal) (r : PedalRecord) : (s.setPedal p r).loader = s.loader :=
  by cases p <;> rfl
@[simp] theorem State.setPedal_openCount (p : Pedal) (r : PedalRecord) : (s.setPedal p r).openCount = s.openCount :=
  by cases p <;> rfl
@[simp] theorem State.setPedal_pending (p : Pedal) (r : PedalRecord) : (s.setPedal p r).pending = s.pending :=
  by cases p <;> rfl
@[simp] theorem State.setPedal_key (p : Pedal) (r : PedalRecord) (j : Key) : (s.setPedal p r).key j = s.key j :=
  by cases p <;> rfl
@[simp] theorem State.setPedal_voice (p : Pedal) (r : PedalRecord) (j : Key) : (s.setPedal p r).voice j = s.voice j :=
  by cases p <;> rfl
@[simp] theorem State.setPedal_heatOf (p : Pedal) (r : PedalRecord) (j : Key) : (s.setPedal p r).heatOf j = s.heatOf j :=
  by cases p <;> rfl
@[simp] theorem State.setPedal_context (p : Pedal) (r : PedalRecord) (o' : Source) : (s.setPedal p r).context o' = s.context o' :=
  by cases p <;> cases o' <;> rfl
@[simp] theorem State.setPedal_half (p : Pedal) (r : PedalRecord) (h' : Half) : (s.setPedal p r).half h' = s.half h' :=
  by cases p <;> cases h' <;> rfl
@[simp] theorem State.setPedal_setting (p : Pedal) (r : PedalRecord) (y : Setting) : (s.setPedal p r).setting y = s.setting y :=
  by cases p <;> rfl
@[simp] theorem State.setPedal_owner (p : Pedal) (r : PedalRecord) (j : Key) : (s.setPedal p r).owner j = s.owner j :=
  by cases p <;> rfl

/-! ### `State.setPort` -/

@[simp] theorem State.setPort_clock (p : HostPort) : (s.setPort p).clock = s.clock := rfl
@[simp] theorem State.setPort_servicePin (p : HostPort) : (s.setPort p).servicePin = s.servicePin := rfl
@[simp] theorem State.setPort_settings (p : HostPort) : (s.setPort p).settings = s.settings := rfl
@[simp] theorem State.setPort_scan (p : HostPort) : (s.setPort p).scan = s.scan := rfl
@[simp] theorem State.setPort_tracker (p : HostPort) : (s.setPort p).tracker = s.tracker := rfl
@[simp] theorem State.setPort_apertures (p : HostPort) : (s.setPort p).apertures = s.apertures := rfl
@[simp] theorem State.setPort_expression (p : HostPort) : (s.setPort p).expression = s.expression := rfl
@[simp] theorem State.setPort_contexts (p : HostPort) : (s.setPort p).contexts = s.contexts := rfl
@[simp] theorem State.setPort_keys (p : HostPort) : (s.setPort p).keys = s.keys := rfl
@[simp] theorem State.setPort_quiet (p : HostPort) : (s.setPort p).quiet = s.quiet := rfl
@[simp] theorem State.setPort_queue (p : HostPort) : (s.setPort p).queue = s.queue := rfl
@[simp] theorem State.setPort_heat (p : HostPort) : (s.setPort p).heat = s.heat := rfl
@[simp] theorem State.setPort_hub (p : HostPort) : (s.setPort p).hub = s.hub := rfl
@[simp] theorem State.setPort_voicing (p : HostPort) : (s.setPort p).voicing = s.voicing := rfl
@[simp] theorem State.setPort_pedals (p : HostPort) : (s.setPort p).pedals = s.pedals := rfl
@[simp] theorem State.setPort_cue (p : HostPort) : (s.setPort p).cue = s.cue := rfl
@[simp] theorem State.setPort_loader (p : HostPort) : (s.setPort p).loader = s.loader := rfl
@[simp] theorem State.setPort_openCount (p : HostPort) : (s.setPort p).openCount = s.openCount := rfl
@[simp] theorem State.setPort_pending (p : HostPort) : (s.setPort p).pending = s.pending := rfl
@[simp] theorem State.setPort_key (p : HostPort) (j : Key) : (s.setPort p).key j = s.key j := rfl
@[simp] theorem State.setPort_voice (p : HostPort) (j : Key) : (s.setPort p).voice j = s.voice j := rfl
@[simp] theorem State.setPort_heatOf (p : HostPort) (j : Key) : (s.setPort p).heatOf j = s.heatOf j := rfl
@[simp] theorem State.setPort_context (p : HostPort) (o' : Source) : (s.setPort p).context o' = s.context o' :=
  by cases o' <;> rfl
@[simp] theorem State.setPort_half (p : HostPort) (h' : Half) : (s.setPort p).half h' = s.half h' :=
  by cases h' <;> rfl
@[simp] theorem State.setPort_pedal (p : HostPort) (p' : Pedal) : (s.setPort p).pedal p' = s.pedal p' :=
  by cases p' <;> rfl
@[simp] theorem State.setPort_setting (p : HostPort) (y : Setting) : (s.setPort p).setting y = s.setting y :=
  rfl
@[simp] theorem State.setPort_owner (p : HostPort) (j : Key) : (s.setPort p).owner j = s.owner j := rfl
@[simp] theorem State.setPort_port (p : HostPort) : (s.setPort p).port = p := rfl

/-! ### `State.dropHead` -/

@[simp] theorem State.dropHead_clock : (s.dropHead).clock = s.clock := rfl
@[simp] theorem State.dropHead_servicePin : (s.dropHead).servicePin = s.servicePin := rfl
@[simp] theorem State.dropHead_settings : (s.dropHead).settings = s.settings := rfl
@[simp] theorem State.dropHead_scan : (s.dropHead).scan = s.scan := rfl
@[simp] theorem State.dropHead_tracker : (s.dropHead).tracker = s.tracker := rfl
@[simp] theorem State.dropHead_apertures : (s.dropHead).apertures = s.apertures := rfl
@[simp] theorem State.dropHead_expression : (s.dropHead).expression = s.expression := rfl
@[simp] theorem State.dropHead_contexts : (s.dropHead).contexts = s.contexts := rfl
@[simp] theorem State.dropHead_keys : (s.dropHead).keys = s.keys := rfl
@[simp] theorem State.dropHead_quiet : (s.dropHead).quiet = s.quiet := rfl
@[simp] theorem State.dropHead_queue : (s.dropHead).queue = s.queue := rfl
@[simp] theorem State.dropHead_heat : (s.dropHead).heat = s.heat := rfl
@[simp] theorem State.dropHead_hub : (s.dropHead).hub = s.hub := rfl
@[simp] theorem State.dropHead_voicing : (s.dropHead).voicing = s.voicing := rfl
@[simp] theorem State.dropHead_pedals : (s.dropHead).pedals = s.pedals := rfl
@[simp] theorem State.dropHead_cue : (s.dropHead).cue = s.cue := rfl
@[simp] theorem State.dropHead_loader : (s.dropHead).loader = s.loader := rfl
@[simp] theorem State.dropHead_openCount : (s.dropHead).openCount = s.openCount := rfl
@[simp] theorem State.dropHead_pending : (s.dropHead).pending = s.pending := rfl
@[simp] theorem State.dropHead_key (j : Key) : (s.dropHead).key j = s.key j := rfl
@[simp] theorem State.dropHead_voice (j : Key) : (s.dropHead).voice j = s.voice j := rfl
@[simp] theorem State.dropHead_heatOf (j : Key) : (s.dropHead).heatOf j = s.heatOf j := rfl
@[simp] theorem State.dropHead_context (o' : Source) : (s.dropHead).context o' = s.context o' :=
  by cases o' <;> rfl
@[simp] theorem State.dropHead_half (h' : Half) : (s.dropHead).half h' = s.half h' := by cases h' <;> rfl
@[simp] theorem State.dropHead_pedal (p' : Pedal) : (s.dropHead).pedal p' = s.pedal p' := by cases p' <;> rfl
@[simp] theorem State.dropHead_setting (y : Setting) : (s.dropHead).setting y = s.setting y := rfl
@[simp] theorem State.dropHead_owner (j : Key) : (s.dropHead).owner j = s.owner j := rfl
@[simp] theorem State.dropHead_port : (s.dropHead).port = { s.port with intake := s.port.intake.tail } := rfl

/-! ### `State.respond` -/

@[simp] theorem State.respond_clock (c g : Byte) (r : Result) (d : List Byte) : (s.respond c g r d).clock = s.clock :=
  rfl
@[simp] theorem State.respond_servicePin (c g : Byte) (r : Result) (d : List Byte) : (s.respond c g r d).servicePin = s.servicePin :=
  rfl
@[simp] theorem State.respond_settings (c g : Byte) (r : Result) (d : List Byte) : (s.respond c g r d).settings = s.settings :=
  rfl
@[simp] theorem State.respond_scan (c g : Byte) (r : Result) (d : List Byte) : (s.respond c g r d).scan = s.scan :=
  rfl
@[simp] theorem State.respond_tracker (c g : Byte) (r : Result) (d : List Byte) : (s.respond c g r d).tracker = s.tracker :=
  rfl
@[simp] theorem State.respond_apertures (c g : Byte) (r : Result) (d : List Byte) : (s.respond c g r d).apertures = s.apertures :=
  rfl
@[simp] theorem State.respond_expression (c g : Byte) (r : Result) (d : List Byte) : (s.respond c g r d).expression = s.expression :=
  rfl
@[simp] theorem State.respond_contexts (c g : Byte) (r : Result) (d : List Byte) : (s.respond c g r d).contexts = s.contexts :=
  rfl
@[simp] theorem State.respond_keys (c g : Byte) (r : Result) (d : List Byte) : (s.respond c g r d).keys = s.keys :=
  rfl
@[simp] theorem State.respond_quiet (c g : Byte) (r : Result) (d : List Byte) : (s.respond c g r d).quiet = s.quiet :=
  rfl
@[simp] theorem State.respond_queue (c g : Byte) (r : Result) (d : List Byte) : (s.respond c g r d).queue = s.queue :=
  rfl
@[simp] theorem State.respond_heat (c g : Byte) (r : Result) (d : List Byte) : (s.respond c g r d).heat = s.heat :=
  rfl
@[simp] theorem State.respond_hub (c g : Byte) (r : Result) (d : List Byte) : (s.respond c g r d).hub = s.hub :=
  rfl
@[simp] theorem State.respond_voicing (c g : Byte) (r : Result) (d : List Byte) : (s.respond c g r d).voicing = s.voicing :=
  rfl
@[simp] theorem State.respond_pedals (c g : Byte) (r : Result) (d : List Byte) : (s.respond c g r d).pedals = s.pedals :=
  rfl
@[simp] theorem State.respond_cue (c g : Byte) (r : Result) (d : List Byte) : (s.respond c g r d).cue = s.cue :=
  rfl
@[simp] theorem State.respond_loader (c g : Byte) (r : Result) (d : List Byte) : (s.respond c g r d).loader = s.loader :=
  rfl
@[simp] theorem State.respond_openCount (c g : Byte) (r : Result) (d : List Byte) : (s.respond c g r d).openCount = s.openCount :=
  rfl
@[simp] theorem State.respond_pending (c g : Byte) (r : Result) (d : List Byte) : (s.respond c g r d).pending = s.pending :=
  rfl
@[simp] theorem State.respond_key (c g : Byte) (r : Result) (d : List Byte) (j : Key) : (s.respond c g r d).key j = s.key j :=
  rfl
@[simp] theorem State.respond_voice (c g : Byte) (r : Result) (d : List Byte) (j : Key) : (s.respond c g r d).voice j = s.voice j :=
  rfl
@[simp] theorem State.respond_heatOf (c g : Byte) (r : Result) (d : List Byte) (j : Key) : (s.respond c g r d).heatOf j = s.heatOf j :=
  rfl
@[simp] theorem State.respond_context (c g : Byte) (r : Result) (d : List Byte) (o' : Source) : (s.respond c g r d).context o' = s.context o' :=
  by cases o' <;> rfl
@[simp] theorem State.respond_half (c g : Byte) (r : Result) (d : List Byte) (h' : Half) : (s.respond c g r d).half h' = s.half h' :=
  by cases h' <;> rfl
@[simp] theorem State.respond_pedal (c g : Byte) (r : Result) (d : List Byte) (p' : Pedal) : (s.respond c g r d).pedal p' = s.pedal p' :=
  by cases p' <;> rfl
@[simp] theorem State.respond_setting (c g : Byte) (r : Result) (d : List Byte) (y : Setting) : (s.respond c g r d).setting y = s.setting y :=
  rfl
@[simp] theorem State.respond_owner (c g : Byte) (r : Result) (d : List Byte) (j : Key) : (s.respond c g r d).owner j = s.owner j :=
  rfl

/-! ### `State.setScan` -/

@[simp] theorem State.setScan_clock (x : Scan) : (s.setScan x).clock = s.clock := rfl
@[simp] theorem State.setScan_servicePin (x : Scan) : (s.setScan x).servicePin = s.servicePin := rfl
@[simp] theorem State.setScan_settings (x : Scan) : (s.setScan x).settings = s.settings := rfl
@[simp] theorem State.setScan_tracker (x : Scan) : (s.setScan x).tracker = s.tracker := rfl
@[simp] theorem State.setScan_apertures (x : Scan) : (s.setScan x).apertures = s.apertures := rfl
@[simp] theorem State.setScan_expression (x : Scan) : (s.setScan x).expression = s.expression := rfl
@[simp] theorem State.setScan_contexts (x : Scan) : (s.setScan x).contexts = s.contexts := rfl
@[simp] theorem State.setScan_keys (x : Scan) : (s.setScan x).keys = s.keys := rfl
@[simp] theorem State.setScan_quiet (x : Scan) : (s.setScan x).quiet = s.quiet := rfl
@[simp] theorem State.setScan_queue (x : Scan) : (s.setScan x).queue = s.queue := rfl
@[simp] theorem State.setScan_heat (x : Scan) : (s.setScan x).heat = s.heat := rfl
@[simp] theorem State.setScan_hub (x : Scan) : (s.setScan x).hub = s.hub := rfl
@[simp] theorem State.setScan_voicing (x : Scan) : (s.setScan x).voicing = s.voicing := rfl
@[simp] theorem State.setScan_pedals (x : Scan) : (s.setScan x).pedals = s.pedals := rfl
@[simp] theorem State.setScan_cue (x : Scan) : (s.setScan x).cue = s.cue := rfl
@[simp] theorem State.setScan_port (x : Scan) : (s.setScan x).port = s.port := rfl
@[simp] theorem State.setScan_loader (x : Scan) : (s.setScan x).loader = s.loader := rfl
@[simp] theorem State.setScan_openCount (x : Scan) : (s.setScan x).openCount = s.openCount := rfl
@[simp] theorem State.setScan_pending (x : Scan) : (s.setScan x).pending = s.pending := rfl
@[simp] theorem State.setScan_key (x : Scan) (j : Key) : (s.setScan x).key j = s.key j := rfl
@[simp] theorem State.setScan_voice (x : Scan) (j : Key) : (s.setScan x).voice j = s.voice j := rfl
@[simp] theorem State.setScan_heatOf (x : Scan) (j : Key) : (s.setScan x).heatOf j = s.heatOf j := rfl
@[simp] theorem State.setScan_context (x : Scan) (o' : Source) : (s.setScan x).context o' = s.context o' :=
  by cases o' <;> rfl
@[simp] theorem State.setScan_half (x : Scan) (h' : Half) : (s.setScan x).half h' = s.half h' :=
  by cases h' <;> rfl
@[simp] theorem State.setScan_pedal (x : Scan) (p' : Pedal) : (s.setScan x).pedal p' = s.pedal p' :=
  by cases p' <;> rfl
@[simp] theorem State.setScan_setting (x : Scan) (y : Setting) : (s.setScan x).setting y = s.setting y := rfl
@[simp] theorem State.setScan_owner (x : Scan) (j : Key) : (s.setScan x).owner j = s.owner j := rfl
@[simp] theorem State.setScan_scan (x : Scan) : (s.setScan x).scan = x := rfl

/-! ### `State.setTracker` -/

@[simp] theorem State.setTracker_clock (t : Tracker) : (s.setTracker t).clock = s.clock := rfl
@[simp] theorem State.setTracker_servicePin (t : Tracker) : (s.setTracker t).servicePin = s.servicePin := rfl
@[simp] theorem State.setTracker_settings (t : Tracker) : (s.setTracker t).settings = s.settings := rfl
@[simp] theorem State.setTracker_scan (t : Tracker) : (s.setTracker t).scan = s.scan := rfl
@[simp] theorem State.setTracker_apertures (t : Tracker) : (s.setTracker t).apertures = s.apertures := rfl
@[simp] theorem State.setTracker_expression (t : Tracker) : (s.setTracker t).expression = s.expression := rfl
@[simp] theorem State.setTracker_contexts (t : Tracker) : (s.setTracker t).contexts = s.contexts := rfl
@[simp] theorem State.setTracker_keys (t : Tracker) : (s.setTracker t).keys = s.keys := rfl
@[simp] theorem State.setTracker_quiet (t : Tracker) : (s.setTracker t).quiet = s.quiet := rfl
@[simp] theorem State.setTracker_queue (t : Tracker) : (s.setTracker t).queue = s.queue := rfl
@[simp] theorem State.setTracker_heat (t : Tracker) : (s.setTracker t).heat = s.heat := rfl
@[simp] theorem State.setTracker_hub (t : Tracker) : (s.setTracker t).hub = s.hub := rfl
@[simp] theorem State.setTracker_voicing (t : Tracker) : (s.setTracker t).voicing = s.voicing := rfl
@[simp] theorem State.setTracker_pedals (t : Tracker) : (s.setTracker t).pedals = s.pedals := rfl
@[simp] theorem State.setTracker_cue (t : Tracker) : (s.setTracker t).cue = s.cue := rfl
@[simp] theorem State.setTracker_port (t : Tracker) : (s.setTracker t).port = s.port := rfl
@[simp] theorem State.setTracker_loader (t : Tracker) : (s.setTracker t).loader = s.loader := rfl
@[simp] theorem State.setTracker_openCount (t : Tracker) : (s.setTracker t).openCount = s.openCount := rfl
@[simp] theorem State.setTracker_pending (t : Tracker) : (s.setTracker t).pending = s.pending := rfl
@[simp] theorem State.setTracker_key (t : Tracker) (j : Key) : (s.setTracker t).key j = s.key j := rfl
@[simp] theorem State.setTracker_voice (t : Tracker) (j : Key) : (s.setTracker t).voice j = s.voice j := rfl
@[simp] theorem State.setTracker_heatOf (t : Tracker) (j : Key) : (s.setTracker t).heatOf j = s.heatOf j :=
  rfl
@[simp] theorem State.setTracker_context (t : Tracker) (o' : Source) : (s.setTracker t).context o' = s.context o' :=
  by cases o' <;> rfl
@[simp] theorem State.setTracker_half (t : Tracker) (h' : Half) : (s.setTracker t).half h' = s.half h' :=
  by cases h' <;> rfl
@[simp] theorem State.setTracker_pedal (t : Tracker) (p' : Pedal) : (s.setTracker t).pedal p' = s.pedal p' :=
  by cases p' <;> rfl
@[simp] theorem State.setTracker_setting (t : Tracker) (y : Setting) : (s.setTracker t).setting y = s.setting y :=
  rfl
@[simp] theorem State.setTracker_owner (t : Tracker) (j : Key) : (s.setTracker t).owner j = s.owner j := rfl
@[simp] theorem State.setTracker_tracker (t : Tracker) : (s.setTracker t).tracker = t := rfl

/-! ### `State.setHub` -/

@[simp] theorem State.setHub_clock (h : HammerPort) : (s.setHub h).clock = s.clock := rfl
@[simp] theorem State.setHub_servicePin (h : HammerPort) : (s.setHub h).servicePin = s.servicePin := rfl
@[simp] theorem State.setHub_settings (h : HammerPort) : (s.setHub h).settings = s.settings := rfl
@[simp] theorem State.setHub_scan (h : HammerPort) : (s.setHub h).scan = s.scan := rfl
@[simp] theorem State.setHub_tracker (h : HammerPort) : (s.setHub h).tracker = s.tracker := rfl
@[simp] theorem State.setHub_apertures (h : HammerPort) : (s.setHub h).apertures = s.apertures := rfl
@[simp] theorem State.setHub_expression (h : HammerPort) : (s.setHub h).expression = s.expression := rfl
@[simp] theorem State.setHub_contexts (h : HammerPort) : (s.setHub h).contexts = s.contexts := rfl
@[simp] theorem State.setHub_keys (h : HammerPort) : (s.setHub h).keys = s.keys := rfl
@[simp] theorem State.setHub_quiet (h : HammerPort) : (s.setHub h).quiet = s.quiet := rfl
@[simp] theorem State.setHub_queue (h : HammerPort) : (s.setHub h).queue = s.queue := rfl
@[simp] theorem State.setHub_heat (h : HammerPort) : (s.setHub h).heat = s.heat := rfl
@[simp] theorem State.setHub_voicing (h : HammerPort) : (s.setHub h).voicing = s.voicing := rfl
@[simp] theorem State.setHub_pedals (h : HammerPort) : (s.setHub h).pedals = s.pedals := rfl
@[simp] theorem State.setHub_cue (h : HammerPort) : (s.setHub h).cue = s.cue := rfl
@[simp] theorem State.setHub_port (h : HammerPort) : (s.setHub h).port = s.port := rfl
@[simp] theorem State.setHub_loader (h : HammerPort) : (s.setHub h).loader = s.loader := rfl
@[simp] theorem State.setHub_openCount (h : HammerPort) : (s.setHub h).openCount = s.openCount := rfl
@[simp] theorem State.setHub_pending (h : HammerPort) : (s.setHub h).pending = s.pending := rfl
@[simp] theorem State.setHub_key (h : HammerPort) (j : Key) : (s.setHub h).key j = s.key j := rfl
@[simp] theorem State.setHub_voice (h : HammerPort) (j : Key) : (s.setHub h).voice j = s.voice j := rfl
@[simp] theorem State.setHub_heatOf (h : HammerPort) (j : Key) : (s.setHub h).heatOf j = s.heatOf j := rfl
@[simp] theorem State.setHub_context (h : HammerPort) (o' : Source) : (s.setHub h).context o' = s.context o' :=
  by cases o' <;> rfl
@[simp] theorem State.setHub_half (h : HammerPort) (h' : Half) : (s.setHub h).half h' = s.half h' :=
  by cases h' <;> rfl
@[simp] theorem State.setHub_pedal (h : HammerPort) (p' : Pedal) : (s.setHub h).pedal p' = s.pedal p' :=
  by cases p' <;> rfl
@[simp] theorem State.setHub_setting (h : HammerPort) (y : Setting) : (s.setHub h).setting y = s.setting y :=
  rfl
@[simp] theorem State.setHub_owner (h : HammerPort) (j : Key) : (s.setHub h).owner j = s.owner j := rfl
@[simp] theorem State.setHub_hub (h : HammerPort) : (s.setHub h).hub = h := rfl

/-! ### `State.setVoice` -/

@[simp] theorem State.setVoice_clock (k : Key) (r : VoicingRecord) : (s.setVoice k r).clock = s.clock := rfl
@[simp] theorem State.setVoice_servicePin (k : Key) (r : VoicingRecord) : (s.setVoice k r).servicePin = s.servicePin :=
  rfl
@[simp] theorem State.setVoice_settings (k : Key) (r : VoicingRecord) : (s.setVoice k r).settings = s.settings :=
  rfl
@[simp] theorem State.setVoice_scan (k : Key) (r : VoicingRecord) : (s.setVoice k r).scan = s.scan := rfl
@[simp] theorem State.setVoice_tracker (k : Key) (r : VoicingRecord) : (s.setVoice k r).tracker = s.tracker :=
  rfl
@[simp] theorem State.setVoice_apertures (k : Key) (r : VoicingRecord) : (s.setVoice k r).apertures = s.apertures :=
  rfl
@[simp] theorem State.setVoice_expression (k : Key) (r : VoicingRecord) : (s.setVoice k r).expression = s.expression :=
  rfl
@[simp] theorem State.setVoice_contexts (k : Key) (r : VoicingRecord) : (s.setVoice k r).contexts = s.contexts :=
  rfl
@[simp] theorem State.setVoice_keys (k : Key) (r : VoicingRecord) : (s.setVoice k r).keys = s.keys := rfl
@[simp] theorem State.setVoice_quiet (k : Key) (r : VoicingRecord) : (s.setVoice k r).quiet = s.quiet := rfl
@[simp] theorem State.setVoice_queue (k : Key) (r : VoicingRecord) : (s.setVoice k r).queue = s.queue := rfl
@[simp] theorem State.setVoice_heat (k : Key) (r : VoicingRecord) : (s.setVoice k r).heat = s.heat := rfl
@[simp] theorem State.setVoice_hub (k : Key) (r : VoicingRecord) : (s.setVoice k r).hub = s.hub := rfl
@[simp] theorem State.setVoice_pedals (k : Key) (r : VoicingRecord) : (s.setVoice k r).pedals = s.pedals :=
  rfl
@[simp] theorem State.setVoice_cue (k : Key) (r : VoicingRecord) : (s.setVoice k r).cue = s.cue := rfl
@[simp] theorem State.setVoice_port (k : Key) (r : VoicingRecord) : (s.setVoice k r).port = s.port := rfl
@[simp] theorem State.setVoice_loader (k : Key) (r : VoicingRecord) : (s.setVoice k r).loader = s.loader :=
  rfl
@[simp] theorem State.setVoice_openCount (k : Key) (r : VoicingRecord) : (s.setVoice k r).openCount = s.openCount :=
  rfl
@[simp] theorem State.setVoice_pending (k : Key) (r : VoicingRecord) : (s.setVoice k r).pending = s.pending :=
  rfl
@[simp] theorem State.setVoice_key (k : Key) (r : VoicingRecord) (j : Key) : (s.setVoice k r).key j = s.key j :=
  rfl
@[simp] theorem State.setVoice_heatOf (k : Key) (r : VoicingRecord) (j : Key) : (s.setVoice k r).heatOf j = s.heatOf j :=
  rfl
@[simp] theorem State.setVoice_context (k : Key) (r : VoicingRecord) (o' : Source) : (s.setVoice k r).context o' = s.context o' :=
  by cases o' <;> rfl
@[simp] theorem State.setVoice_half (k : Key) (r : VoicingRecord) (h' : Half) : (s.setVoice k r).half h' = s.half h' :=
  by cases h' <;> rfl
@[simp] theorem State.setVoice_pedal (k : Key) (r : VoicingRecord) (p' : Pedal) : (s.setVoice k r).pedal p' = s.pedal p' :=
  by cases p' <;> rfl
@[simp] theorem State.setVoice_setting (k : Key) (r : VoicingRecord) (y : Setting) : (s.setVoice k r).setting y = s.setting y :=
  rfl
@[simp] theorem State.setVoice_owner (k : Key) (r : VoicingRecord) (j : Key) : (s.setVoice k r).owner j = s.owner j :=
  rfl
@[simp] theorem State.setVoice_voicing (k : Key) (r : VoicingRecord) : (s.setVoice k r).voicing = s.voicing.set k r :=
  rfl

/-! ### `State.setHeat` -/

@[simp] theorem State.setHeat_clock (k : Key) (h : Nat) : (s.setHeat k h).clock = s.clock := rfl
@[simp] theorem State.setHeat_servicePin (k : Key) (h : Nat) : (s.setHeat k h).servicePin = s.servicePin :=
  rfl
@[simp] theorem State.setHeat_settings (k : Key) (h : Nat) : (s.setHeat k h).settings = s.settings := rfl
@[simp] theorem State.setHeat_scan (k : Key) (h : Nat) : (s.setHeat k h).scan = s.scan := rfl
@[simp] theorem State.setHeat_tracker (k : Key) (h : Nat) : (s.setHeat k h).tracker = s.tracker := rfl
@[simp] theorem State.setHeat_apertures (k : Key) (h : Nat) : (s.setHeat k h).apertures = s.apertures := rfl
@[simp] theorem State.setHeat_expression (k : Key) (h : Nat) : (s.setHeat k h).expression = s.expression :=
  rfl
@[simp] theorem State.setHeat_contexts (k : Key) (h : Nat) : (s.setHeat k h).contexts = s.contexts := rfl
@[simp] theorem State.setHeat_keys (k : Key) (h : Nat) : (s.setHeat k h).keys = s.keys := rfl
@[simp] theorem State.setHeat_quiet (k : Key) (h : Nat) : (s.setHeat k h).quiet = s.quiet := rfl
@[simp] theorem State.setHeat_queue (k : Key) (h : Nat) : (s.setHeat k h).queue = s.queue := rfl
@[simp] theorem State.setHeat_hub (k : Key) (h : Nat) : (s.setHeat k h).hub = s.hub := rfl
@[simp] theorem State.setHeat_voicing (k : Key) (h : Nat) : (s.setHeat k h).voicing = s.voicing := rfl
@[simp] theorem State.setHeat_pedals (k : Key) (h : Nat) : (s.setHeat k h).pedals = s.pedals := rfl
@[simp] theorem State.setHeat_cue (k : Key) (h : Nat) : (s.setHeat k h).cue = s.cue := rfl
@[simp] theorem State.setHeat_port (k : Key) (h : Nat) : (s.setHeat k h).port = s.port := rfl
@[simp] theorem State.setHeat_loader (k : Key) (h : Nat) : (s.setHeat k h).loader = s.loader := rfl
@[simp] theorem State.setHeat_openCount (k : Key) (h : Nat) : (s.setHeat k h).openCount = s.openCount := rfl
@[simp] theorem State.setHeat_pending (k : Key) (h : Nat) : (s.setHeat k h).pending = s.pending := rfl
@[simp] theorem State.setHeat_key (k : Key) (h : Nat) (j : Key) : (s.setHeat k h).key j = s.key j := rfl
@[simp] theorem State.setHeat_voice (k : Key) (h : Nat) (j : Key) : (s.setHeat k h).voice j = s.voice j := rfl
@[simp] theorem State.setHeat_context (k : Key) (h : Nat) (o' : Source) : (s.setHeat k h).context o' = s.context o' :=
  by cases o' <;> rfl
@[simp] theorem State.setHeat_half (k : Key) (h : Nat) (h' : Half) : (s.setHeat k h).half h' = s.half h' :=
  by cases h' <;> rfl
@[simp] theorem State.setHeat_pedal (k : Key) (h : Nat) (p' : Pedal) : (s.setHeat k h).pedal p' = s.pedal p' :=
  by cases p' <;> rfl
@[simp] theorem State.setHeat_setting (k : Key) (h : Nat) (y : Setting) : (s.setHeat k h).setting y = s.setting y :=
  rfl
@[simp] theorem State.setHeat_owner (k : Key) (h : Nat) (j : Key) : (s.setHeat k h).owner j = s.owner j := rfl
@[simp] theorem State.setHeat_heat (k : Key) (h : Nat) : (s.setHeat k h).heat = { s.heat with figures := s.heat.figures.set k h } :=
  rfl

/-! ### `State.setCue` -/

@[simp] theorem State.setCue_clock (c : CuePlayer) : (s.setCue c).clock = s.clock := rfl
@[simp] theorem State.setCue_servicePin (c : CuePlayer) : (s.setCue c).servicePin = s.servicePin := rfl
@[simp] theorem State.setCue_settings (c : CuePlayer) : (s.setCue c).settings = s.settings := rfl
@[simp] theorem State.setCue_scan (c : CuePlayer) : (s.setCue c).scan = s.scan := rfl
@[simp] theorem State.setCue_tracker (c : CuePlayer) : (s.setCue c).tracker = s.tracker := rfl
@[simp] theorem State.setCue_apertures (c : CuePlayer) : (s.setCue c).apertures = s.apertures := rfl
@[simp] theorem State.setCue_expression (c : CuePlayer) : (s.setCue c).expression = s.expression := rfl
@[simp] theorem State.setCue_contexts (c : CuePlayer) : (s.setCue c).contexts = s.contexts := rfl
@[simp] theorem State.setCue_keys (c : CuePlayer) : (s.setCue c).keys = s.keys := rfl
@[simp] theorem State.setCue_quiet (c : CuePlayer) : (s.setCue c).quiet = s.quiet := rfl
@[simp] theorem State.setCue_queue (c : CuePlayer) : (s.setCue c).queue = s.queue := rfl
@[simp] theorem State.setCue_heat (c : CuePlayer) : (s.setCue c).heat = s.heat := rfl
@[simp] theorem State.setCue_hub (c : CuePlayer) : (s.setCue c).hub = s.hub := rfl
@[simp] theorem State.setCue_voicing (c : CuePlayer) : (s.setCue c).voicing = s.voicing := rfl
@[simp] theorem State.setCue_pedals (c : CuePlayer) : (s.setCue c).pedals = s.pedals := rfl
@[simp] theorem State.setCue_port (c : CuePlayer) : (s.setCue c).port = s.port := rfl
@[simp] theorem State.setCue_loader (c : CuePlayer) : (s.setCue c).loader = s.loader := rfl
@[simp] theorem State.setCue_openCount (c : CuePlayer) : (s.setCue c).openCount = s.openCount := rfl
@[simp] theorem State.setCue_pending (c : CuePlayer) : (s.setCue c).pending = s.pending := rfl
@[simp] theorem State.setCue_key (c : CuePlayer) (j : Key) : (s.setCue c).key j = s.key j := rfl
@[simp] theorem State.setCue_voice (c : CuePlayer) (j : Key) : (s.setCue c).voice j = s.voice j := rfl
@[simp] theorem State.setCue_heatOf (c : CuePlayer) (j : Key) : (s.setCue c).heatOf j = s.heatOf j := rfl
@[simp] theorem State.setCue_context (c : CuePlayer) (o' : Source) : (s.setCue c).context o' = s.context o' :=
  by cases o' <;> rfl
@[simp] theorem State.setCue_half (c : CuePlayer) (h' : Half) : (s.setCue c).half h' = s.half h' :=
  by cases h' <;> rfl
@[simp] theorem State.setCue_pedal (c : CuePlayer) (p' : Pedal) : (s.setCue c).pedal p' = s.pedal p' :=
  by cases p' <;> rfl
@[simp] theorem State.setCue_setting (c : CuePlayer) (y : Setting) : (s.setCue c).setting y = s.setting y :=
  rfl
@[simp] theorem State.setCue_owner (c : CuePlayer) (j : Key) : (s.setCue c).owner j = s.owner j := rfl
@[simp] theorem State.setCue_cue (c : CuePlayer) : (s.setCue c).cue = c := rfl

/-! ### `State.setEntries` -/

@[simp] theorem State.setEntries_clock (q : List QueueEntry) : (s.setEntries q).clock = s.clock := rfl
@[simp] theorem State.setEntries_servicePin (q : List QueueEntry) : (s.setEntries q).servicePin = s.servicePin :=
  rfl
@[simp] theorem State.setEntries_settings (q : List QueueEntry) : (s.setEntries q).settings = s.settings :=
  rfl
@[simp] theorem State.setEntries_scan (q : List QueueEntry) : (s.setEntries q).scan = s.scan := rfl
@[simp] theorem State.setEntries_tracker (q : List QueueEntry) : (s.setEntries q).tracker = s.tracker := rfl
@[simp] theorem State.setEntries_apertures (q : List QueueEntry) : (s.setEntries q).apertures = s.apertures :=
  rfl
@[simp] theorem State.setEntries_expression (q : List QueueEntry) : (s.setEntries q).expression = s.expression :=
  rfl
@[simp] theorem State.setEntries_contexts (q : List QueueEntry) : (s.setEntries q).contexts = s.contexts :=
  rfl
@[simp] theorem State.setEntries_keys (q : List QueueEntry) : (s.setEntries q).keys = s.keys := rfl
@[simp] theorem State.setEntries_quiet (q : List QueueEntry) : (s.setEntries q).quiet = s.quiet := rfl
@[simp] theorem State.setEntries_heat (q : List QueueEntry) : (s.setEntries q).heat = s.heat := rfl
@[simp] theorem State.setEntries_hub (q : List QueueEntry) : (s.setEntries q).hub = s.hub := rfl
@[simp] theorem State.setEntries_voicing (q : List QueueEntry) : (s.setEntries q).voicing = s.voicing := rfl
@[simp] theorem State.setEntries_pedals (q : List QueueEntry) : (s.setEntries q).pedals = s.pedals := rfl
@[simp] theorem State.setEntries_cue (q : List QueueEntry) : (s.setEntries q).cue = s.cue := rfl
@[simp] theorem State.setEntries_port (q : List QueueEntry) : (s.setEntries q).port = s.port := rfl
@[simp] theorem State.setEntries_loader (q : List QueueEntry) : (s.setEntries q).loader = s.loader := rfl
@[simp] theorem State.setEntries_openCount (q : List QueueEntry) : (s.setEntries q).openCount = s.openCount :=
  rfl
@[simp] theorem State.setEntries_pending (q : List QueueEntry) : (s.setEntries q).pending = s.pending := rfl
@[simp] theorem State.setEntries_key (q : List QueueEntry) (j : Key) : (s.setEntries q).key j = s.key j := rfl
@[simp] theorem State.setEntries_voice (q : List QueueEntry) (j : Key) : (s.setEntries q).voice j = s.voice j :=
  rfl
@[simp] theorem State.setEntries_heatOf (q : List QueueEntry) (j : Key) : (s.setEntries q).heatOf j = s.heatOf j :=
  rfl
@[simp] theorem State.setEntries_context (q : List QueueEntry) (o' : Source) : (s.setEntries q).context o' = s.context o' :=
  by cases o' <;> rfl
@[simp] theorem State.setEntries_half (q : List QueueEntry) (h' : Half) : (s.setEntries q).half h' = s.half h' :=
  by cases h' <;> rfl
@[simp] theorem State.setEntries_pedal (q : List QueueEntry) (p' : Pedal) : (s.setEntries q).pedal p' = s.pedal p' :=
  by cases p' <;> rfl
@[simp] theorem State.setEntries_setting (q : List QueueEntry) (y : Setting) : (s.setEntries q).setting y = s.setting y :=
  rfl
@[simp] theorem State.setEntries_owner (q : List QueueEntry) (j : Key) : (s.setEntries q).owner j = s.owner j :=
  rfl
@[simp] theorem State.setEntries_queue (q : List QueueEntry) : (s.setEntries q).queue = { s.queue with entries := q } :=
  rfl

/-! ### `State.setStatus` -/

@[simp] theorem State.setStatus_clock (h : HeadStatus) : (s.setStatus h).clock = s.clock := rfl
@[simp] theorem State.setStatus_servicePin (h : HeadStatus) : (s.setStatus h).servicePin = s.servicePin := rfl
@[simp] theorem State.setStatus_settings (h : HeadStatus) : (s.setStatus h).settings = s.settings := rfl
@[simp] theorem State.setStatus_scan (h : HeadStatus) : (s.setStatus h).scan = s.scan := rfl
@[simp] theorem State.setStatus_tracker (h : HeadStatus) : (s.setStatus h).tracker = s.tracker := rfl
@[simp] theorem State.setStatus_apertures (h : HeadStatus) : (s.setStatus h).apertures = s.apertures := rfl
@[simp] theorem State.setStatus_expression (h : HeadStatus) : (s.setStatus h).expression = s.expression := rfl
@[simp] theorem State.setStatus_contexts (h : HeadStatus) : (s.setStatus h).contexts = s.contexts := rfl
@[simp] theorem State.setStatus_keys (h : HeadStatus) : (s.setStatus h).keys = s.keys := rfl
@[simp] theorem State.setStatus_quiet (h : HeadStatus) : (s.setStatus h).quiet = s.quiet := rfl
@[simp] theorem State.setStatus_heat (h : HeadStatus) : (s.setStatus h).heat = s.heat := rfl
@[simp] theorem State.setStatus_hub (h : HeadStatus) : (s.setStatus h).hub = s.hub := rfl
@[simp] theorem State.setStatus_voicing (h : HeadStatus) : (s.setStatus h).voicing = s.voicing := rfl
@[simp] theorem State.setStatus_pedals (h : HeadStatus) : (s.setStatus h).pedals = s.pedals := rfl
@[simp] theorem State.setStatus_cue (h : HeadStatus) : (s.setStatus h).cue = s.cue := rfl
@[simp] theorem State.setStatus_port (h : HeadStatus) : (s.setStatus h).port = s.port := rfl
@[simp] theorem State.setStatus_loader (h : HeadStatus) : (s.setStatus h).loader = s.loader := rfl
@[simp] theorem State.setStatus_openCount (h : HeadStatus) : (s.setStatus h).openCount = s.openCount := rfl
@[simp] theorem State.setStatus_pending (h : HeadStatus) : (s.setStatus h).pending = s.pending := rfl
@[simp] theorem State.setStatus_key (h : HeadStatus) (j : Key) : (s.setStatus h).key j = s.key j := rfl
@[simp] theorem State.setStatus_voice (h : HeadStatus) (j : Key) : (s.setStatus h).voice j = s.voice j := rfl
@[simp] theorem State.setStatus_heatOf (h : HeadStatus) (j : Key) : (s.setStatus h).heatOf j = s.heatOf j :=
  rfl
@[simp] theorem State.setStatus_context (h : HeadStatus) (o' : Source) : (s.setStatus h).context o' = s.context o' :=
  by cases o' <;> rfl
@[simp] theorem State.setStatus_half (h : HeadStatus) (h' : Half) : (s.setStatus h).half h' = s.half h' :=
  by cases h' <;> rfl
@[simp] theorem State.setStatus_pedal (h : HeadStatus) (p' : Pedal) : (s.setStatus h).pedal p' = s.pedal p' :=
  by cases p' <;> rfl
@[simp] theorem State.setStatus_setting (h : HeadStatus) (y : Setting) : (s.setStatus h).setting y = s.setting y :=
  rfl
@[simp] theorem State.setStatus_owner (h : HeadStatus) (j : Key) : (s.setStatus h).owner j = s.owner j := rfl
@[simp] theorem State.setStatus_queue (h : HeadStatus) : (s.setStatus h).queue = { s.queue with status := h } :=
  rfl

/-! ### `State.setLoader` -/

@[simp] theorem State.setLoader_clock (l : ImageLoader) : (s.setLoader l).clock = s.clock := rfl
@[simp] theorem State.setLoader_servicePin (l : ImageLoader) : (s.setLoader l).servicePin = s.servicePin :=
  rfl
@[simp] theorem State.setLoader_settings (l : ImageLoader) : (s.setLoader l).settings = s.settings := rfl
@[simp] theorem State.setLoader_scan (l : ImageLoader) : (s.setLoader l).scan = s.scan := rfl
@[simp] theorem State.setLoader_tracker (l : ImageLoader) : (s.setLoader l).tracker = s.tracker := rfl
@[simp] theorem State.setLoader_apertures (l : ImageLoader) : (s.setLoader l).apertures = s.apertures := rfl
@[simp] theorem State.setLoader_expression (l : ImageLoader) : (s.setLoader l).expression = s.expression :=
  rfl
@[simp] theorem State.setLoader_contexts (l : ImageLoader) : (s.setLoader l).contexts = s.contexts := rfl
@[simp] theorem State.setLoader_keys (l : ImageLoader) : (s.setLoader l).keys = s.keys := rfl
@[simp] theorem State.setLoader_quiet (l : ImageLoader) : (s.setLoader l).quiet = s.quiet := rfl
@[simp] theorem State.setLoader_queue (l : ImageLoader) : (s.setLoader l).queue = s.queue := rfl
@[simp] theorem State.setLoader_heat (l : ImageLoader) : (s.setLoader l).heat = s.heat := rfl
@[simp] theorem State.setLoader_hub (l : ImageLoader) : (s.setLoader l).hub = s.hub := rfl
@[simp] theorem State.setLoader_voicing (l : ImageLoader) : (s.setLoader l).voicing = s.voicing := rfl
@[simp] theorem State.setLoader_pedals (l : ImageLoader) : (s.setLoader l).pedals = s.pedals := rfl
@[simp] theorem State.setLoader_cue (l : ImageLoader) : (s.setLoader l).cue = s.cue := rfl
@[simp] theorem State.setLoader_port (l : ImageLoader) : (s.setLoader l).port = s.port := rfl
@[simp] theorem State.setLoader_openCount (l : ImageLoader) : (s.setLoader l).openCount = s.openCount := rfl
@[simp] theorem State.setLoader_pending (l : ImageLoader) : (s.setLoader l).pending = s.pending := rfl
@[simp] theorem State.setLoader_key (l : ImageLoader) (j : Key) : (s.setLoader l).key j = s.key j := rfl
@[simp] theorem State.setLoader_voice (l : ImageLoader) (j : Key) : (s.setLoader l).voice j = s.voice j := rfl
@[simp] theorem State.setLoader_heatOf (l : ImageLoader) (j : Key) : (s.setLoader l).heatOf j = s.heatOf j :=
  rfl
@[simp] theorem State.setLoader_context (l : ImageLoader) (o' : Source) : (s.setLoader l).context o' = s.context o' :=
  by cases o' <;> rfl
@[simp] theorem State.setLoader_half (l : ImageLoader) (h' : Half) : (s.setLoader l).half h' = s.half h' :=
  by cases h' <;> rfl
@[simp] theorem State.setLoader_pedal (l : ImageLoader) (p' : Pedal) : (s.setLoader l).pedal p' = s.pedal p' :=
  by cases p' <;> rfl
@[simp] theorem State.setLoader_setting (l : ImageLoader) (y : Setting) : (s.setLoader l).setting y = s.setting y :=
  rfl
@[simp] theorem State.setLoader_owner (l : ImageLoader) (j : Key) : (s.setLoader l).owner j = s.owner j := rfl
@[simp] theorem State.setLoader_loader (l : ImageLoader) : (s.setLoader l).loader = l := rfl

/-! ### `State.setContext` -/

@[simp] theorem State.setContext_clock (o : Source) (c : ContextBlock) : (s.setContext o c).clock = s.clock :=
  by cases o <;> rfl
@[simp] theorem State.setContext_servicePin (o : Source) (c : ContextBlock) : (s.setContext o c).servicePin = s.servicePin :=
  by cases o <;> rfl
@[simp] theorem State.setContext_settings (o : Source) (c : ContextBlock) : (s.setContext o c).settings = s.settings :=
  by cases o <;> rfl
@[simp] theorem State.setContext_scan (o : Source) (c : ContextBlock) : (s.setContext o c).scan = s.scan :=
  by cases o <;> rfl
@[simp] theorem State.setContext_tracker (o : Source) (c : ContextBlock) : (s.setContext o c).tracker = s.tracker :=
  by cases o <;> rfl
@[simp] theorem State.setContext_apertures (o : Source) (c : ContextBlock) : (s.setContext o c).apertures = s.apertures :=
  by cases o <;> rfl
@[simp] theorem State.setContext_expression (o : Source) (c : ContextBlock) : (s.setContext o c).expression = s.expression :=
  by cases o <;> rfl
@[simp] theorem State.setContext_keys (o : Source) (c : ContextBlock) : (s.setContext o c).keys = s.keys :=
  by cases o <;> rfl
@[simp] theorem State.setContext_quiet (o : Source) (c : ContextBlock) : (s.setContext o c).quiet = s.quiet :=
  by cases o <;> rfl
@[simp] theorem State.setContext_queue (o : Source) (c : ContextBlock) : (s.setContext o c).queue = s.queue :=
  by cases o <;> rfl
@[simp] theorem State.setContext_heat (o : Source) (c : ContextBlock) : (s.setContext o c).heat = s.heat :=
  by cases o <;> rfl
@[simp] theorem State.setContext_hub (o : Source) (c : ContextBlock) : (s.setContext o c).hub = s.hub :=
  by cases o <;> rfl
@[simp] theorem State.setContext_voicing (o : Source) (c : ContextBlock) : (s.setContext o c).voicing = s.voicing :=
  by cases o <;> rfl
@[simp] theorem State.setContext_pedals (o : Source) (c : ContextBlock) : (s.setContext o c).pedals = s.pedals :=
  by cases o <;> rfl
@[simp] theorem State.setContext_cue (o : Source) (c : ContextBlock) : (s.setContext o c).cue = s.cue :=
  by cases o <;> rfl
@[simp] theorem State.setContext_port (o : Source) (c : ContextBlock) : (s.setContext o c).port = s.port :=
  by cases o <;> rfl
@[simp] theorem State.setContext_loader (o : Source) (c : ContextBlock) : (s.setContext o c).loader = s.loader :=
  by cases o <;> rfl
@[simp] theorem State.setContext_openCount (o : Source) (c : ContextBlock) : (s.setContext o c).openCount = s.openCount :=
  by cases o <;> rfl
@[simp] theorem State.setContext_pending (o : Source) (c : ContextBlock) : (s.setContext o c).pending = s.pending :=
  by cases o <;> rfl
@[simp] theorem State.setContext_key (o : Source) (c : ContextBlock) (j : Key) : (s.setContext o c).key j = s.key j :=
  by cases o <;> rfl
@[simp] theorem State.setContext_voice (o : Source) (c : ContextBlock) (j : Key) : (s.setContext o c).voice j = s.voice j :=
  by cases o <;> rfl
@[simp] theorem State.setContext_heatOf (o : Source) (c : ContextBlock) (j : Key) : (s.setContext o c).heatOf j = s.heatOf j :=
  by cases o <;> rfl
@[simp] theorem State.setContext_half (o : Source) (c : ContextBlock) (h' : Half) : (s.setContext o c).half h' = s.half h' :=
  by cases o <;> cases h' <;> rfl
@[simp] theorem State.setContext_pedal (o : Source) (c : ContextBlock) (p' : Pedal) : (s.setContext o c).pedal p' = s.pedal p' :=
  by cases o <;> cases p' <;> rfl
@[simp] theorem State.setContext_setting (o : Source) (c : ContextBlock) (y : Setting) : (s.setContext o c).setting y = s.setting y :=
  by cases o <;> rfl
@[simp] theorem State.setContext_owner (o : Source) (c : ContextBlock) (j : Key) : (s.setContext o c).owner j = s.owner j :=
  by cases o <;> rfl

/-! ### `State.putSetting` -/

@[simp] theorem State.putSetting_clock (x : Setting) (v : Nat) : (s.putSetting x v).clock = s.clock := rfl
@[simp] theorem State.putSetting_servicePin (x : Setting) (v : Nat) : (s.putSetting x v).servicePin = s.servicePin :=
  rfl
@[simp] theorem State.putSetting_scan (x : Setting) (v : Nat) : (s.putSetting x v).scan = s.scan := rfl
@[simp] theorem State.putSetting_tracker (x : Setting) (v : Nat) : (s.putSetting x v).tracker = s.tracker :=
  rfl
@[simp] theorem State.putSetting_apertures (x : Setting) (v : Nat) : (s.putSetting x v).apertures = s.apertures :=
  rfl
@[simp] theorem State.putSetting_expression (x : Setting) (v : Nat) : (s.putSetting x v).expression = s.expression :=
  rfl
@[simp] theorem State.putSetting_contexts (x : Setting) (v : Nat) : (s.putSetting x v).contexts = s.contexts :=
  rfl
@[simp] theorem State.putSetting_keys (x : Setting) (v : Nat) : (s.putSetting x v).keys = s.keys := rfl
@[simp] theorem State.putSetting_quiet (x : Setting) (v : Nat) : (s.putSetting x v).quiet = s.quiet := rfl
@[simp] theorem State.putSetting_queue (x : Setting) (v : Nat) : (s.putSetting x v).queue = s.queue := rfl
@[simp] theorem State.putSetting_heat (x : Setting) (v : Nat) : (s.putSetting x v).heat = s.heat := rfl
@[simp] theorem State.putSetting_hub (x : Setting) (v : Nat) : (s.putSetting x v).hub = s.hub := rfl
@[simp] theorem State.putSetting_voicing (x : Setting) (v : Nat) : (s.putSetting x v).voicing = s.voicing :=
  rfl
@[simp] theorem State.putSetting_pedals (x : Setting) (v : Nat) : (s.putSetting x v).pedals = s.pedals := rfl
@[simp] theorem State.putSetting_cue (x : Setting) (v : Nat) : (s.putSetting x v).cue = s.cue := rfl
@[simp] theorem State.putSetting_port (x : Setting) (v : Nat) : (s.putSetting x v).port = s.port := rfl
@[simp] theorem State.putSetting_loader (x : Setting) (v : Nat) : (s.putSetting x v).loader = s.loader := rfl
@[simp] theorem State.putSetting_openCount (x : Setting) (v : Nat) : (s.putSetting x v).openCount = s.openCount :=
  rfl
@[simp] theorem State.putSetting_pending (x : Setting) (v : Nat) : (s.putSetting x v).pending = s.pending :=
  rfl
@[simp] theorem State.putSetting_key (x : Setting) (v : Nat) (j : Key) : (s.putSetting x v).key j = s.key j :=
  rfl
@[simp] theorem State.putSetting_voice (x : Setting) (v : Nat) (j : Key) : (s.putSetting x v).voice j = s.voice j :=
  rfl
@[simp] theorem State.putSetting_heatOf (x : Setting) (v : Nat) (j : Key) : (s.putSetting x v).heatOf j = s.heatOf j :=
  rfl
@[simp] theorem State.putSetting_context (x : Setting) (v : Nat) (o' : Source) : (s.putSetting x v).context o' = s.context o' :=
  by cases o' <;> rfl
@[simp] theorem State.putSetting_half (x : Setting) (v : Nat) (h' : Half) : (s.putSetting x v).half h' = s.half h' :=
  by cases h' <;> rfl
@[simp] theorem State.putSetting_pedal (x : Setting) (v : Nat) (p' : Pedal) : (s.putSetting x v).pedal p' = s.pedal p' :=
  by cases p' <;> rfl
@[simp] theorem State.putSetting_owner (x : Setting) (v : Nat) (j : Key) : (s.putSetting x v).owner j = s.owner j :=
  rfl
@[simp] theorem State.putSetting_settings (x : Setting) (v : Nat) : (s.putSetting x v).settings = s.settings.put x v :=
  rfl

/-! ### `State.raise` -/

@[simp] theorem State.raise_clock (n : NoticeKind) (b : List Byte) : (s.raise n b).clock = s.clock :=
  by unfold State.raise; split <;> rfl
@[simp] theorem State.raise_servicePin (n : NoticeKind) (b : List Byte) : (s.raise n b).servicePin = s.servicePin :=
  by unfold State.raise; split <;> rfl
@[simp] theorem State.raise_settings (n : NoticeKind) (b : List Byte) : (s.raise n b).settings = s.settings :=
  by unfold State.raise; split <;> rfl
@[simp] theorem State.raise_scan (n : NoticeKind) (b : List Byte) : (s.raise n b).scan = s.scan :=
  by unfold State.raise; split <;> rfl
@[simp] theorem State.raise_tracker (n : NoticeKind) (b : List Byte) : (s.raise n b).tracker = s.tracker :=
  by unfold State.raise; split <;> rfl
@[simp] theorem State.raise_apertures (n : NoticeKind) (b : List Byte) : (s.raise n b).apertures = s.apertures :=
  by unfold State.raise; split <;> rfl
@[simp] theorem State.raise_expression (n : NoticeKind) (b : List Byte) : (s.raise n b).expression = s.expression :=
  by unfold State.raise; split <;> rfl
@[simp] theorem State.raise_contexts (n : NoticeKind) (b : List Byte) : (s.raise n b).contexts = s.contexts :=
  by unfold State.raise; split <;> rfl
@[simp] theorem State.raise_keys (n : NoticeKind) (b : List Byte) : (s.raise n b).keys = s.keys :=
  by unfold State.raise; split <;> rfl
@[simp] theorem State.raise_quiet (n : NoticeKind) (b : List Byte) : (s.raise n b).quiet = s.quiet :=
  by unfold State.raise; split <;> rfl
@[simp] theorem State.raise_queue (n : NoticeKind) (b : List Byte) : (s.raise n b).queue = s.queue :=
  by unfold State.raise; split <;> rfl
@[simp] theorem State.raise_heat (n : NoticeKind) (b : List Byte) : (s.raise n b).heat = s.heat :=
  by unfold State.raise; split <;> rfl
@[simp] theorem State.raise_hub (n : NoticeKind) (b : List Byte) : (s.raise n b).hub = s.hub :=
  by unfold State.raise; split <;> rfl
@[simp] theorem State.raise_voicing (n : NoticeKind) (b : List Byte) : (s.raise n b).voicing = s.voicing :=
  by unfold State.raise; split <;> rfl
@[simp] theorem State.raise_pedals (n : NoticeKind) (b : List Byte) : (s.raise n b).pedals = s.pedals :=
  by unfold State.raise; split <;> rfl
@[simp] theorem State.raise_cue (n : NoticeKind) (b : List Byte) : (s.raise n b).cue = s.cue :=
  by unfold State.raise; split <;> rfl
@[simp] theorem State.raise_loader (n : NoticeKind) (b : List Byte) : (s.raise n b).loader = s.loader :=
  by unfold State.raise; split <;> rfl
@[simp] theorem State.raise_openCount (n : NoticeKind) (b : List Byte) : (s.raise n b).openCount = s.openCount :=
  by unfold State.raise; split <;> rfl
@[simp] theorem State.raise_pending (n : NoticeKind) (b : List Byte) : (s.raise n b).pending = s.pending :=
  by unfold State.raise; split <;> rfl
@[simp] theorem State.raise_key (n : NoticeKind) (b : List Byte) (j : Key) : (s.raise n b).key j = s.key j :=
  by unfold State.raise; split <;> rfl
@[simp] theorem State.raise_voice (n : NoticeKind) (b : List Byte) (j : Key) : (s.raise n b).voice j = s.voice j :=
  by unfold State.raise; split <;> rfl
@[simp] theorem State.raise_heatOf (n : NoticeKind) (b : List Byte) (j : Key) : (s.raise n b).heatOf j = s.heatOf j :=
  by unfold State.raise; split <;> rfl
@[simp] theorem State.raise_context (n : NoticeKind) (b : List Byte) (o' : Source) : (s.raise n b).context o' = s.context o' :=
  by unfold State.raise; split <;> cases o' <;> rfl
@[simp] theorem State.raise_half (n : NoticeKind) (b : List Byte) (h' : Half) : (s.raise n b).half h' = s.half h' :=
  by unfold State.raise; split <;> cases h' <;> rfl
@[simp] theorem State.raise_pedal (n : NoticeKind) (b : List Byte) (p' : Pedal) : (s.raise n b).pedal p' = s.pedal p' :=
  by unfold State.raise; split <;> cases p' <;> rfl
@[simp] theorem State.raise_setting (n : NoticeKind) (b : List Byte) (y : Setting) : (s.raise n b).setting y = s.setting y :=
  by unfold State.raise; split <;> rfl
@[simp] theorem State.raise_owner (n : NoticeKind) (b : List Byte) (j : Key) : (s.raise n b).owner j = s.owner j :=
  by unfold State.raise; split <;> rfl

end Sys2Proof.Machine
end

