-- ==== Sys2Proof/Laws/Tables.lean ====
section
/-! SUPPORT. Reading a table after a write to it, and after a change of every entry. -/

namespace Sys2Proof.Machine

/-! ### Tables -/

/-- A fold that sets distinct places leaves every other place alone. -/
theorem foldl_set_get_of_not_mem {α : Type} {n : Nat} (f : Fin n → α → α) (l : List (Fin n)) (v : Vector α n)
    (i : Fin n) (h : i ∉ l) :
    (l.foldl (fun w (j : Fin n) => w.set j (f j v[j])) v)[i] = v[i] := by
  suffices ∀ w : Vector α n, (l.foldl (fun w (j : Fin n) => w.set j (f j v[j])) w)[i] = w[i] from this v
  induction l with
  | nil => intro w; rfl
  | cons a l ih =>
    intro w
    simp only [List.mem_cons, not_or] at h
    rw [List.foldl_cons, ih h.2]
    have : (a : Nat) ≠ i := fun e => h.1 (Fin.ext e.symm)
    simp [Fin.getElem_fin, this]

/-- A table changed entry by entry holds, at every place, the function of the old entry there. -/
@[simp] theorem mapTable_get {α : Type} {n : Nat} (f : Fin n → α → α) (v : Vector α n) (i : Fin n) :
    (mapTable f v)[i] = f i v[i] := by
  have key : ∀ (l : List (Fin n)) (w : Vector α n), l.Nodup → i ∈ l →
      (l.foldl (fun w (j : Fin n) => w.set j (f j v[j])) w)[i] = f i v[i] := by
    intro l
    induction l with
    | nil => intro w _ h; cases h
    | cons a l ih =>
      intro w nd h
      obtain ⟨na, nl⟩ := List.nodup_cons.mp nd
      rw [List.foldl_cons]
      by_cases e : i = a
      · subst e
        clear ih
        suffices ∀ (l : List (Fin n)) (w : Vector α n), i ∉ l → w[i] = f i v[i] →
            (l.foldl (fun w (j : Fin n) => w.set j (f j v[j])) w)[i] = f i v[i] by
          refine this l _ na ?_
          simp [Fin.getElem_fin]
        intro l
        induction l with
        | nil => intro w _ h; exact h
        | cons b l ih =>
          intro w nb hw
          simp only [List.mem_cons, not_or] at nb
          rw [List.foldl_cons]
          refine ih _ nb.2 ?_
          have : (b : Nat) ≠ i := fun e => nb.1 (Fin.ext e.symm)
          simpa [Fin.getElem_fin, Vector.getElem_set, this] using hw
      · exact ih _ nl ((List.mem_cons.mp h).resolve_left e)
  exact key _ v (List.nodup_finRange n) (List.mem_finRange i)

/-! ### Reading after a write -/

/-- A key's record after a write to a key. -/
theorem State.key_setKey (s : State) (k j : Key) (r : KeyRecord) :
    (s.setKey k r).key j = if k = j then r else s.key j := by
  simp [State.key, State.setKey, Fin.getElem_fin, Vector.getElem_set, Fin.ext_iff]

@[simp] theorem State.key_setKey_same (s : State) (k : Key) (r : KeyRecord) : (s.setKey k r).key k = r := by
  simp [State.key_setKey]

theorem State.key_setKey_ne (s : State) (k j : Key) (r : KeyRecord) (h : k ≠ j) :
    (s.setKey k r).key j = s.key j := by
  simp [State.key_setKey, h]

/-- A key's record after a change of a key's phase. -/
theorem State.key_setPhase (s : State) (k j : Key) (p : KeyPhase) :
    (s.setPhase k p).key j = if k = j then { s.key k with phase := p } else s.key j :=
  State.key_setKey s k j _

@[simp] theorem State.key_setPhase_same (s : State) (k : Key) (p : KeyPhase) :
    (s.setPhase k p).key k = { s.key k with phase := p } := by
  simp [State.key_setPhase]

theorem State.key_setPhase_ne (s : State) (k j : Key) (p : KeyPhase) (h : k ≠ j) :
    (s.setPhase k p).key j = s.key j := by
  simp [State.key_setPhase, h]

/-- A key's voicing record after a write to a key's. -/
theorem State.voice_setVoice (s : State) (k j : Key) (r : VoicingRecord) :
    (s.setVoice k r).voice j = if k = j then r else s.voice j := by
  simp [State.voice, State.setVoice, Fin.getElem_fin, Vector.getElem_set, Fin.ext_iff]

/-- A key's heat figure after a write to a key's. -/
theorem State.heatOf_setHeat (s : State) (k j : Key) (h : Nat) :
    (s.setHeat k h).heatOf j = if k = j then h else s.heatOf j := by
  simp [State.heatOf, State.setHeat, Fin.getElem_fin, Vector.getElem_set, Fin.ext_iff]

@[simp] theorem State.half_setHalf_same (s : State) (h : Half) (c : HalfContext) : (s.setHalf h c).half h = c := by
  cases h <;> rfl

theorem State.half_setHalf_ne (s : State) (h g : Half) (c : HalfContext) (e : h ≠ g) :
    (s.setHalf h c).half g = s.half g := by
  cases h <;> cases g <;> first | rfl | exact absurd rfl e

@[simp] theorem State.pedal_setPedal_same (s : State) (p : Pedal) (r : PedalRecord) :
    (s.setPedal p r).pedal p = r := by
  cases p <;> rfl

theorem State.pedal_setPedal_ne (s : State) (p q : Pedal) (r : PedalRecord) (e : p ≠ q) :
    (s.setPedal p r).pedal q = s.pedal q := by
  cases p <;> cases q <;> first | rfl | exact absurd rfl e

@[simp] theorem State.setPedal_nextStep (s : State) (p : Pedal) (r : PedalRecord) :
    (s.setPedal p r).pedals.nextStep = s.pedals.nextStep := by
  cases p <;> rfl

@[simp] theorem State.context_setContext_same (s : State) (o : Source) (c : ContextBlock) :
    (s.setContext o c).context o = c := by
  cases o <;> rfl

theorem State.context_setContext_ne (s : State) (o p : Source) (c : ContextBlock) (e : o ≠ p) :
    (s.setContext o c).context p = s.context p := by
  cases o <;> cases p <;> first | rfl | exact absurd rfl e

/-! ### Settings -/

/-- Two settings with one place are one setting. -/
theorem Setting.index_inj (x y : Setting) (h : x.index = y.index) : x = y := by
  cases x <;> cases y <;> first | rfl | (exact absurd h (by decide))

/-- A setting's value after a write of a setting. -/
theorem Settings.get_put (s : Settings) (x y : Setting) (v : Nat) :
    (s.put x v).get y = if x = y then v else s.get y := by
  by_cases e : x = y
  · subst e; simp [Settings.get, Settings.put]
  · have : (x.index : Nat) ≠ y.index := fun h => e (Setting.index_inj x y (Fin.ext h))
    simp [Settings.get, Settings.put, Fin.getElem_fin, this, e]

/-- A setting's value in the state after a write of a setting. -/
theorem State.setting_putSetting (s : State) (x y : Setting) (v : Nat) :
    (s.putSetting x v).setting y = if x = y then v else s.setting y :=
  Settings.get_put s.settings x y v

/-- The number of a setting names it. -/
theorem settingOfNumber_number (x : Setting) : settingOfNumber x.row.number = some x := by
  cases x <;> rfl

/-! ### Keys by number -/

/-- The number of a key names it. -/
@[simp] theorem keyOfNumber_keyNumber (k : Key) : keyOfNumber (keyNumber k) = some k := by
  have : 1 ≤ keyNumber k ∧ keyNumber k ≤ 88 := by unfold keyNumber; omega
  simp only [keyOfNumber, this, and_self, dite_true, Option.some.injEq]
  exact Fin.ext (by simp [keyNumber])

/-- A number outside 1..88 names no key. -/
theorem keyOfNumber_none (n : Nat) (h : n = 0 ∨ 88 < n) : keyOfNumber n = none := by
  unfold keyOfNumber
  rw [dif_neg]
  omega

end Sys2Proof.Machine
end

