-- ==== Sys2Proof/Laws/Port.lean ====
section
/-! SUPPORT. The fields of frames, and what the execution of a request can do. -/

namespace Sys2Proof.Machine

/-! ### Fields -/

/-- A field of `n` bytes has `n` bytes. -/
@[simp] theorem bytesOf_length (n v : Nat) : (bytesOf n v).length = n := by
  induction n with
  | zero => rfl
  | succ n ih => simp [bytesOf, ih]

@[simp] theorem field16_length (v : Nat) : (field16 v).length = 2 := rfl

@[simp] theorem field32_length (v : Nat) : (field32 v).length = 4 := rfl

@[simp] theorem fieldTime_length (t : Time) : (fieldTime t).length = 4 := rfl

/-- The value of a byte is the number it was made of, for a number below 256. -/
theorem byteOf_toNat (n : Nat) (h : n < 256) : (byteOf n).toNat = n := by
  simp only [byteOf, BitVec.toNat_ofNat]
  omega

/-- A two-byte field reads as the number it was made of. -/
theorem valueOf_field16 (v : Nat) (h : v < 65536) : valueOf (field16 v) = v := by
  simp only [valueOf, field16, bytesOf, List.foldl, byteOf, BitVec.toNat_ofNat]
  omega

/-- A four-byte field reads as the number it was made of. -/
theorem valueOf_field32 (v : Nat) (h : v < 4294967296) : valueOf (field32 v) = v := by
  simp only [valueOf, field32, bytesOf, List.foldl, byteOf, BitVec.toNat_ofNat]
  omega

/-- The two bytes of a two-byte field. -/
theorem field16_eq (v : Nat) : field16 v = [byteOf (v / 256), byteOf v] := by
  simp [field16, bytesOf]

/-- The four bytes of a four-byte field. -/
theorem field32_eq (v : Nat) :
    field32 v = [byteOf (v / 16777216), byteOf (v / 65536), byteOf (v / 256), byteOf v] := by
  simp [field32, bytesOf]

/-- A two-byte argument inside a frame reads as the number its field was made of. -/
theorem arg16_append (before rest : List Byte) (v : Nat) (h : v < 65536) :
    arg16 (before ++ (field16 v ++ rest)) before.length = v := by
  rw [arg16, List.drop_left, List.take_append_of_le_length (by simp), List.take_of_length_le (by simp),
    valueOf_field16 v h]

/-- A four-byte argument inside a frame reads as the number its field was made of. -/
theorem arg32_append (before rest : List Byte) (v : Nat) (h : v < 4294967296) :
    arg32 (before ++ (field32 v ++ rest)) before.length = v := by
  rw [arg32, List.drop_left, List.take_append_of_le_length (by simp), List.take_of_length_le (by simp),
    valueOf_field32 v h]

/-- A time inside a frame reads as the time its field was made of. -/
theorem argTime_append (before rest : List Byte) (t : Time) :
    argTime (before ++ (fieldTime t ++ rest)) before.length = t := by
  rw [argTime, fieldTime, arg32_append before rest _ t.isLt, BitVec.ofNat_toNat, BitVec.setWidth_eq]

/-- A key number fits its byte. -/
@[simp] theorem byteOf_keyNumber (k : Key) : (byteOf (keyNumber k)).toNat = keyNumber k :=
  byteOf_toNat _ (by unfold keyNumber; omega)

/-! ### Request frames -/

/-- A request's frame passes the first test of R195 when its code takes that many arguments. -/
theorem frameGood_requestFrame (code : Nat) (tag : Byte) (arguments : List Byte) (hc : code < 256)
    (hl : arguments.length ≤ 61) (ha : argumentsAllowed code arguments.length = true) :
    frameGood (requestFrame code tag arguments) = true := by
  have h1 := byteOf_toNat (arguments.length + 3) (by omega)
  have h2 := byteOf_toNat code hc
  have e : (requestFrame code tag arguments).length = arguments.length + 3 := rfl
  have e0 : (requestFrame code tag arguments).getD 0 0 = byteOf (arguments.length + 3) := rfl
  have e1 : frameCode (requestFrame code tag arguments) = byteOf code := rfl
  rw [frameGood, e, e0, e1, h1, h2, Bool.and_eq_true, decide_eq_true_eq]
  exact ⟨⟨by omega, by omega, rfl⟩, ha⟩

@[simp] theorem frameCode_requestFrame (code : Nat) (tag : Byte) (arguments : List Byte) :
    frameCode (requestFrame code tag arguments) = byteOf code := rfl

@[simp] theorem frameTag_requestFrame (code : Nat) (tag : Byte) (arguments : List Byte) :
    frameTag (requestFrame code tag arguments) = tag := rfl

@[simp] theorem frameArguments_requestFrame (code : Nat) (tag : Byte) (arguments : List Byte) :
    frameArguments (requestFrame code tag arguments) = arguments := rfl

/-! ### The execution of a request (R195) -/

/-- A request with its frame at the head of the intake is executed on the state without that frame, and its
answer joins the response queue. -/
theorem serveRequest_of_head (s : State) (code : Nat) (whileLoading : Bool) (act : List Byte → State → Answer)
    (tag : Byte) (arguments : List Byte) (h : RequestAtHead s code tag arguments) (hc : code < 256)
    (hl : arguments.length ≤ 61) (ha : argumentsAllowed code arguments.length = true) :
    serveRequest code whileLoading act s =
      (act arguments s.dropHead).state.respond (byteOf code) tag (act arguments s.dropHead).result
        (act arguments s.dropHead).data := by
  obtain ⟨hr, hroom, hh⟩ := h
  have hg := frameGood_requestFrame code tag arguments hc hl ha
  have h2 := byteOf_toNat code hc
  simp [serveRequest, headFrame, hroom, hh, hg, h2, hr]

/-- An answer that leaves the state without the head frame as it is. -/
theorem respond_dropHead (s : State) (code : Nat) (tag : Byte) (r : Result) (data : List Byte) :
    s.dropHead.respond (byteOf code) tag r data = { s with port := answeredPort s.port code tag r data } := rfl

/-- A request that is refused with nothing changed. -/
theorem serveRequest_refused (s : State) (code : Nat) (whileLoading : Bool) (act : List Byte → State → Answer)
    (tag : Byte) (arguments : List Byte) (r : Result) (h : RequestAtHead s code tag arguments) (hc : code < 256)
    (hl : arguments.length ≤ 61) (ha : argumentsAllowed code arguments.length = true)
    (hr : act arguments s.dropHead = refuse s.dropHead r) :
    serveRequest code whileLoading act s = { s with port := answeredPort s.port code tag r [] } := by
  rw [serveRequest_of_head s code whileLoading act tag arguments h hc hl ha, hr]
  rfl

/-- All that the execution of a request can do: nothing, when the head of the intake is not a good frame of
its code or there is no room for an answer; NOT_READY; or its effect and its answer. -/
theorem serveRequest_cases (s : State) (code : Nat) (whileLoading : Bool) (act : List Byte → State → Answer) :
    serveRequest code whileLoading act s = s ∨
      ∃ f, s.port.responses.length < 16 ∧ s.port.intake.head? = some f ∧ frameGood f = true ∧
        (frameCode f).toNat = code ∧
        ((s.loader.ready = false ∧ whileLoading = false ∧
            serveRequest code whileLoading act s = s.dropHead.respond (frameCode f) (frameTag f) .notReady []) ∨
          ((s.loader.ready = true ∨ whileLoading = true) ∧
            serveRequest code whileLoading act s =
              (act (frameArguments f) s.dropHead).state.respond (frameCode f) (frameTag f)
                (act (frameArguments f) s.dropHead).result (act (frameArguments f) s.dropHead).data)) := by
  unfold serveRequest
  split
  · exact .inl rfl
  · rename_i f hf
    split
    · rename_i hg
      unfold headFrame at hf
      split at hf
      · rename_i room
        refine .inr ⟨f, room, hf, hg.1, hg.2, ?_⟩
        split
        · rename_i hr; exact .inr ⟨hr, rfl⟩
        · rename_i hr
          simp only [not_or, Bool.not_eq_true] at hr
          exact .inl ⟨hr.1, hr.2, rfl⟩
      · cases hf
    · exact .inl rfl

/-! ### Notices (R196) -/

/-- A notice raised with room in its queue joins the tail with the time of the moment. -/
theorem State.raise_of_room (s : State) (kind : NoticeKind) (fields : List Byte)
    (h : s.port.notices.length < 32) :
    s.raise kind fields =
      { s with port := { s.port with
          notices := s.port.notices ++ [{ kind := kind, lost := false, time := s.clock, fields := fields }] } } := by
  unfold State.raise
  rw [if_pos h]

/-- A notice raised changes nothing of the port but the notice queue and its counter. -/
theorem State.raise_port (s : State) (kind : NoticeKind) (fields : List Byte) :
    (s.raise kind fields).port = { s.port with
      notices := (s.raise kind fields).port.notices
      noticesDiscarded := (s.raise kind fields).port.noticesDiscarded } := by
  unfold State.raise
  split <;> rfl

/-- Marking the last notice LOST keeps the length of the queue. -/
theorem markLast_length (q : List Notice) : (State.raise.markLast q).length = q.length := by
  induction q with
  | nil => rfl
  | cons n ns ih =>
    cases ns with
    | nil => rfl
    | cons m ms => simpa [State.raise.markLast] using ih

/-- The notice queue never holds more than 32 notices (R196). -/
theorem State.raise_notices_length (s : State) (kind : NoticeKind) (fields : List Byte)
    (h : s.port.notices.length ≤ 32) : (s.raise kind fields).port.notices.length ≤ 32 := by
  unfold State.raise
  split
  · simp; omega
  · simpa [markLast_length] using h

end Sys2Proof.Machine
end

