-- ==== Sys2Proof/Laws/Keys.lean ====
section
/-! SUPPORT. What the shared operations of the key table, the strike queue and the clock can do. -/

namespace Sys2Proof.Machine

/-! ### The head of the strike queue (R119 to R121) -/

@[simp] theorem setKey_same (s : State) (k : Key) : s.setKey k (s.key k) = s := by
  have : s.keys.set k (s.key k) = s.keys := by
    ext i hi
    simp only [Vector.getElem_set]
    split
    · rename_i e; subst e; rfl
    · rfl
  simp [State.setKey, this]

/-- A launch changes a key that is PENDING and no other. -/
theorem launchedRecord_of_not_pending (s : State) (mode : LaunchMode) (r : KeyRecord)
    (h : isPending r.phase = false) : launchedRecord s mode r = r := by
  unfold launchedRecord
  split
  · rename_i e; rw [e] at h; cases h
  · rfl

/-- A launched record is not PENDING. -/
theorem launchedRecord_not_pending (s : State) (mode : LaunchMode) (r : KeyRecord) :
    isPending (launchedRecord s mode r).phase = false := by
  unfold launchedRecord
  split
  · rfl
  · rename_i h
    cases e : r.phase <;> first | rfl | exact absurd e (h _ _)

/-- All that the examinations of the head can do: keys and queue alone; each key is as it was or launched
from PENDING, and the queue keeps some of its entries in their order. -/
theorem examineLoop_spec (n : Nat) (s : State) :
    ∃ keys queue, examineLoop n s = { s with keys := keys, queue := queue } ∧
      queue.entries.Sublist s.queue.entries ∧
      ∀ j : Key, keys[j] = s.key j ∨
        (isPending (s.key j).phase = true ∧ ∃ mode, keys[j] = launchedRecord s mode (s.key j)) := by
  induction n generalizing s with
  | zero => exact ⟨s.keys, s.queue, rfl, List.Sublist.refl _, fun j => .inl rfl⟩
  | succ n ih =>
    unfold examineLoop
    split
    · exact ⟨s.keys, _, rfl, List.Sublist.refl _, fun j => .inl rfl⟩
    · rename_i e rest he
      split
      · split
        · rename_i mode hm
          obtain ⟨keys, queue, h1, h2, h3⟩ := ih (launchKey mode e.key s)
          refine ⟨keys, queue, h1, h2.trans List.filter_sublist, fun j => ?_⟩
          have hk : (launchKey mode e.key s).key j =
              if e.key = j then launchedRecord s mode (s.key e.key) else s.key j :=
            State.key_setKey s e.key j _
          by_cases ej : e.key = j
          · subst ej
            rw [if_pos rfl] at hk
            have np := launchedRecord_not_pending s mode (s.key e.key)
            have stay : keys[e.key] = launchedRecord s mode (s.key e.key) := by
              rcases h3 e.key with h | ⟨hp, -⟩
              · rw [h, hk]
              · rw [hk, np] at hp; cases hp
            cases hp : isPending (s.key e.key).phase with
            | true => exact .inr ⟨rfl, mode, stay⟩
            | false => exact .inl (stay.trans (launchedRecord_of_not_pending s mode _ hp))
          · rw [if_neg ej] at hk
            have := h3 j
            rw [hk] at this
            exact this
        · exact ⟨s.keys, _, rfl, List.Sublist.refl _, fun j => .inl rfl⟩
      · exact ⟨s.keys, _, rfl, List.Sublist.refl _, fun j => .inl rfl⟩

/-- All that one examination of the head can do (R119, R120). -/
theorem examineHead_spec (s : State) :
    ∃ keys queue, examineHead s = { s with keys := keys, queue := queue } ∧
      queue.entries.Sublist s.queue.entries ∧
      ∀ j : Key, keys[j] = s.key j ∨
        (isPending (s.key j).phase = true ∧ ∃ mode, keys[j] = launchedRecord s mode (s.key j)) :=
  examineLoop_spec _ s

/-- An event settled is the event, with or without the one examination of the head (R132). -/
theorem settling_spec (placed : Option Key) (f : State → State) (s : State) :
    settling placed f s = f s ∨ settling placed f s = examineHead (f s) := by
  unfold settling settleHead
  split
  · exact .inr rfl
  · exact .inl rfl

/-- All that settling adds to an event: keys and queue alone, and of the keys only launches from PENDING. -/
theorem settling_frame (placed : Option Key) (f : State → State) (s : State) :
    ∃ keys queue, settling placed f s = { f s with keys := keys, queue := queue } ∧
      queue.entries.Sublist (f s).queue.entries ∧
      ∀ j : Key, keys[j] = (f s).key j ∨
        (isPending ((f s).key j).phase = true ∧ ∃ mode, keys[j] = launchedRecord (f s) mode ((f s).key j)) := by
  rcases settling_spec placed f s with h | h
  · exact ⟨(f s).keys, (f s).queue, h, List.Sublist.refl _, fun j => .inl rfl⟩
  · rw [h]; exact examineHead_spec (f s)

/-- An event that leaves the head as it was and places no key there needs no examination while the head does
not wait. -/
theorem settling_of_quiet (f : State → State) (s : State) (hh : (f s).queue.entries.head? = s.queue.entries.head?)
    (hw : (f s).queue.status ≠ .waiting) : settling none f s = f s := by
  unfold settling settleHead
  rw [if_neg]
  simp [hh, hw]

/-- A WAITING head is examined again and any other is left. -/
theorem reexamineHead_spec (s : State) : reexamineHead s = s ∨ reexamineHead s = examineHead s := by
  unfold reexamineHead
  split
  · exact .inr rfl
  · exact .inl rfl

/-! ### Many keys at once -/

/-- A change of every phase gives each key its new phase and keeps the rest of its record. -/
@[simp] theorem updatePhases_key (f : Key → KeyRecord → KeyPhase) (s : State) (j : Key) :
    (updatePhases f s).key j = { s.key j with phase := f j (s.key j) } := by
  show (mapTable (fun k r => { r with phase := f k r }) s.keys)[j] = _
  rw [mapTable_get]
  rfl

/-- A change of every phase changes the keys and the queue's entries alone. -/
theorem updatePhases_frame (f : Key → KeyRecord → KeyPhase) (s : State) :
    updatePhases f s = { s with
      keys := (updatePhases f s).keys
      queue := { s.queue with entries := (updatePhases f s).queue.entries } } := rfl

/-- After a change of every phase only entries of PENDING keys stand in the queue. -/
theorem updatePhases_entries (f : Key → KeyRecord → KeyPhase) (s : State) (e : QueueEntry)
    (h : e ∈ (updatePhases f s).queue.entries) :
    e ∈ s.queue.entries ∧ isPending ((updatePhases f s).key e.key).phase = true := by
  obtain ⟨h1, h2⟩ := List.mem_filter.mp h
  exact ⟨h1, h2⟩

/-! ### One key -/

/-- A release time stored changes one key's phase and nothing else (R88). -/
theorem storeRelease_spec (k : Key) (release : Time) (s : State) :
    storeRelease k release s = s ∨ ∃ p, storeRelease k release s = s.setPhase k p := by
  unfold storeRelease
  split
  all_goals first
    | exact .inr ⟨_, rfl⟩
    | exact .inl rfl
    | (split <;> exact .inr ⟨_, rfl⟩)

/-- A close changes nothing but the key it names, and only when that key's owner is the closing one (R87). -/
theorem closeKey_spec (o : Owner) (release : Time) (k : Key) (s : State) :
    closeKey o release k s = s ∨ (s.owner k = some o ∧ ∃ p, closeKey o release k s = s.setPhase k p) := by
  unfold closeKey
  split
  · rename_i h
    rcases storeRelease_spec k release s with e | e
    · exact .inl e
    · exact .inr ⟨h, e⟩
  · exact .inl rfl

/-- A strike end that does not retire the key: the key's phase, and KEY_THERMAL where the key is hot (R90,
R141). -/
theorem endStrike_spec (k : Key) (s : State) :
    endStrike k s = s ∨ (∃ p, endStrike k s = s.setPhase k p) ∨
      (s.heat.max ≤ s.heatOf k ∧ ∃ p o, endStrike k s = raiseThermal k 1 o (s.setPhase k p)) := by
  unfold endStrike
  split
  · exact .inr (.inl ⟨_, rfl⟩)
  · split
    · exact .inr (.inl ⟨_, rfl⟩)
    · split
      · rename_i h; exact .inr (.inr ⟨h, _, _, rfl⟩)
      · exact .inr (.inl ⟨_, rfl⟩)
  · exact .inl rfl

/-- A retirement leaves the key RETIRED with the rest of its record, and no other key touched (R104). -/
theorem retireKey_key (k j : Key) (reason : RetireReason) (s : State) :
    (retireKey k reason s).key j = if k = j then { s.key k with phase := .retired reason } else s.key j := by
  simp [retireKey, dequeue, State.key_setPhase]

/-- A retired key has no entry in the strike queue (R104). -/
theorem retireKey_entries (k : Key) (reason : RetireReason) (s : State) :
    (retireKey k reason s).queue.entries = withoutKey k s.queue.entries := by
  simp [retireKey, dequeue]

/-- A note entering PENDING: the key's phase and the queue's entries alone (R86, R117). -/
theorem enterPending_key (k j : Key) (n : Note) (v : StrikeValues) (s : State) :
    (enterPending k n v s).key j = if k = j then { s.key k with phase := .pending n v } else s.key j := by
  simp [enterPending, State.key_setPhase]

/-! ### Claims (R81, R82) -/

/-- All that a claim can answer: refused in one of three ways with nothing changed, or taken. -/
theorem claim_spec (c : Claim) (s : State) :
    ((s.context c.claimant.source).enabled = false ∧ claim c s = (s, .disabled)) ∨
      ((s.context c.claimant.source).enabled = true ∧ isRetired (s.key c.key).phase = true ∧
        claim c s = (s, .retired)) ∨
      ((s.context c.claimant.source).enabled = true ∧ isRetired (s.key c.key).phase = false ∧
        passesPriority c s = false ∧ claim c s = (s, .owned)) ∨
      ((s.context c.claimant.source).enabled = true ∧ isRetired (s.key c.key).phase = false ∧
        passesPriority c s = true ∧
        claim c s = (settling (some c.key) (takeClaim c) s,
          .taken (phaseNumber ((takeClaim c s).key c.key).phase))) := by
  unfold claim
  cases h1 : (s.context c.claimant.source).enabled with
  | false => exact .inl ⟨rfl, rfl⟩
  | true =>
    cases h2 : isRetired (s.key c.key).phase with
    | true => exact .inr (.inl ⟨rfl, rfl, rfl⟩)
    | false =>
      cases h3 : passesPriority c s with
      | false => exact .inr (.inr (.inl ⟨rfl, rfl, rfl, rfl⟩))
      | true => exact .inr (.inr (.inr ⟨rfl, rfl, rfl, rfl⟩))

/-! ### The clock (log 4) -/

/-- What a hold timeout can change: keys, the queue and the notices. -/
theorem timeOutKey_frame (k : Key) (s : State) :
    ∃ keys port, timeOutKey k s = { s with keys := keys, port := port } ∧ port.intake = s.port.intake ∧
      port.responses = s.port.responses ∧ port.overflowPending = s.port.overflowPending := by
  unfold timeOutKey
  split
  · rename_i n v l d start h
    unfold State.raise
    split
    · exact ⟨_, _, rfl, rfl, rfl, rfl⟩
    · exact ⟨_, _, rfl, rfl, rfl, rfl⟩
  · exact ⟨s.keys, s.port, rfl, rfl, rfl, rfl⟩

/-- What the clock's coming to a time can change: the clock, keys, the strike queue and the notices. -/
theorem arriveLoop_frame (n : Nat) (t : Time) (s : State) :
    ∃ keys queue port, arriveLoop n t s = { s with clock := t, keys := keys, queue := queue, port := port } ∧
      port.intake = s.port.intake ∧ port.responses = s.port.responses ∧
      port.overflowPending = s.port.overflowPending := by
  induction n generalizing s with
  | zero => exact ⟨s.keys, s.queue, s.port, rfl, rfl, rfl, rfl⟩
  | succ n ih =>
    unfold arriveLoop
    split
    · exact ⟨s.keys, s.queue, s.port, rfl, rfl, rfl, rfl⟩
    · rename_i o k _
      obtain ⟨k1, q1, h1, -, -⟩ := settling_frame none (timeOutKey k) (s.atTime (timePlus s.clock o))
      obtain ⟨k2, p2, h2, e1, e2, e3⟩ := timeOutKey_frame k (s.atTime (timePlus s.clock o))
      obtain ⟨k3, q3, p3, h3, e4, e5, e6⟩ :=
        ih (settling none (timeOutKey k) (s.atTime (timePlus s.clock o)))
      rw [h1, h2] at h3 e4 e5 e6
      rw [h1, h2, h3]
      exact ⟨k3, q3, p3, rfl, e4.trans e1, e5.trans e2, e6.trans e3⟩

/-- A KEY_FIND executed changes the port alone (R105a). -/
theorem idle_frame (s : State) : ∃ port, idle s = { s with port := port } := by
  rcases serveRequest_cases s 0x1B false actKeyFind with h | ⟨f, -, -, -, -, h⟩
  · exact ⟨s.port, h⟩
  · rcases h with ⟨-, -, h⟩ | ⟨-, h⟩ <;> exact ⟨_, h⟩

/-- With a frame at the head of the intake that is no KEY_FIND, or none, the part idles. -/
theorem idle_of_other (s : State) (h : ∀ f, s.port.intake.head? = some f → frameCode f ≠ 0x1B) : idle s = s := by
  rcases serveRequest_cases s 0x1B false actKeyFind with e | ⟨f, -, hf, -, hc, -⟩
  · exact e
  · exact absurd (BitVec.eq_of_toNat_eq hc) (h f hf)

/-- The execution of the KEY_FIND requests at the head of the intake changes the port alone (log 3). -/
theorem serveKeyFinds_frame (n : Nat) (s : State) : ∃ port, serveKeyFinds n s = { s with port := port } := by
  induction n generalizing s with
  | zero => exact ⟨s.port, rfl⟩
  | succ n ih =>
    obtain ⟨p, h⟩ := idle_frame s
    obtain ⟨q, h'⟩ := ih (idle s)
    exact ⟨q, by rw [serveKeyFinds, h', h]⟩

theorem serveKeyFinds_of_other (n : Nat) (s : State)
    (h : ∀ f, s.port.intake.head? = some f → frameCode f ≠ 0x1B) : serveKeyFinds n s = s := by
  induction n with
  | zero => rfl
  | succ n ih => rw [serveKeyFinds, idle_of_other s h, ih]

/-- What stands when the clock has come to a time differs from what stood before in the clock, the keys, the
strike queue and the port alone. -/
theorem State.arrive_frame (s : State) (t : Time) :
    ∃ keys queue port, s.arrive t = { s with clock := t, keys := keys, queue := queue, port := port } := by
  obtain ⟨p, h⟩ := serveKeyFinds_frame s.port.intake.length s
  obtain ⟨k, q, p', h', -⟩ := arriveLoop_frame 88 t (serveKeyFinds s.port.intake.length s)
  exact ⟨k, q, p', by rw [State.arrive, h', h]⟩

/-- With no KEY_FIND at the head of the intake the clock's coming leaves the port's requests and responses as
they are. -/
theorem State.arrive_of_other (s : State) (t : Time)
    (ho : ∀ f, s.port.intake.head? = some f → frameCode f ≠ 0x1B) :
    ∃ keys queue port, s.arrive t = { s with clock := t, keys := keys, queue := queue, port := port } ∧
      port.intake = s.port.intake ∧ port.responses = s.port.responses ∧
      port.overflowPending = s.port.overflowPending := by
  rw [State.arrive, serveKeyFinds_of_other _ s ho]
  exact arriveLoop_frame 88 t s

/-- With no KEY_FIND at the head of the intake and no hold timeout on the way only the clock moves. -/
theorem State.arrive_of_quiet (s : State) (t : Time)
    (ho : ∀ f, s.port.intake.head? = some f → frameCode f ≠ 0x1B)
    (hq : firstTimeout s (t - s.clock).toNat = none) : s.arrive t = { s with clock := t } := by
  rw [State.arrive, serveKeyFinds_of_other _ s ho, arriveLoop, hq]
  rfl

theorem State.arrive_clock (s : State) (t : Time) : (s.arrive t).clock = t := by
  obtain ⟨_, _, _, h⟩ := s.arrive_frame t; rw [h]

theorem State.arrive_pending (s : State) (t : Time) : (s.arrive t).pending = s.pending := by
  obtain ⟨_, _, _, h⟩ := s.arrive_frame t; rw [h]

theorem State.arrive_settings (s : State) (t : Time) : (s.arrive t).settings = s.settings := by
  obtain ⟨_, _, _, h⟩ := s.arrive_frame t; rw [h]

theorem State.arrive_contexts (s : State) (t : Time) : (s.arrive t).contexts = s.contexts := by
  obtain ⟨_, _, _, h⟩ := s.arrive_frame t; rw [h]

theorem State.arrive_voicing (s : State) (t : Time) : (s.arrive t).voicing = s.voicing := by
  obtain ⟨_, _, _, h⟩ := s.arrive_frame t; rw [h]

theorem State.arrive_heat (s : State) (t : Time) : (s.arrive t).heat = s.heat := by
  obtain ⟨_, _, _, h⟩ := s.arrive_frame t; rw [h]

theorem State.arrive_loader (s : State) (t : Time) : (s.arrive t).loader = s.loader := by
  obtain ⟨_, _, _, h⟩ := s.arrive_frame t; rw [h]

theorem State.arrive_pedals (s : State) (t : Time) : (s.arrive t).pedals = s.pedals := by
  obtain ⟨_, _, _, h⟩ := s.arrive_frame t; rw [h]

theorem State.arrive_cue (s : State) (t : Time) : (s.arrive t).cue = s.cue := by
  obtain ⟨_, _, _, h⟩ := s.arrive_frame t; rw [h]

theorem State.arrive_tracker (s : State) (t : Time) : (s.arrive t).tracker = s.tracker := by
  obtain ⟨_, _, _, h⟩ := s.arrive_frame t; rw [h]

theorem State.arrive_apertures (s : State) (t : Time) : (s.arrive t).apertures = s.apertures := by
  obtain ⟨_, _, _, h⟩ := s.arrive_frame t; rw [h]

theorem State.arrive_expression (s : State) (t : Time) : (s.arrive t).expression = s.expression := by
  obtain ⟨_, _, _, h⟩ := s.arrive_frame t; rw [h]

theorem State.arrive_scan (s : State) (t : Time) : (s.arrive t).scan = s.scan := by
  obtain ⟨_, _, _, h⟩ := s.arrive_frame t; rw [h]

theorem State.arrive_hub (s : State) (t : Time) : (s.arrive t).hub = s.hub := by
  obtain ⟨_, _, _, h⟩ := s.arrive_frame t; rw [h]

end Sys2Proof.Machine
end

