-- ==== Sys2Proof/Laws/Blocks.lean ====
section
/-! SUPPORT. What the shared operations of the pool, the pedals, the expression unit, the hammer port, the cue
player and the settings can do. -/

namespace Sys2Proof.Machine

/-! ### The pool (R130, R131) -/

/-- A grown claim never takes more than its present value and the free units, and never more than it asks. -/
theorem limitedClaim_le (s : State) (present wanted : Nat) :
    limitedClaim s present wanted ≤ wanted ∧ limitedClaim s present wanted ≤ present + freeUnits s :=
  ⟨Nat.min_le_left _ _, Nat.min_le_right _ _⟩

/-- A pool that is not overdrawn stays so when one claim is replaced by a limited one. -/
theorem limitedClaim_keeps_pool (s : State) (present wanted rest : Nat) (hs : claimSum s = rest + present)
    (hp : claimSum s ≤ s.setting .poolCapacity) :
    rest + limitedClaim s present wanted ≤ s.setting .poolCapacity := by
  have := (limitedClaim_le s present wanted).2
  unfold freeUnits at this
  omega

/-- A granted duty fits the pool. -/
theorem poolGrants_fits (s : State) (duty : Nat) (h : poolGrants s duty = true)
    (hp : claimSum s ≤ s.setting .poolCapacity) : claimSum s + duty ≤ s.setting .poolCapacity := by
  unfold poolGrants freeUnits at h
  simp only [decide_eq_true_eq] at h
  omega

/-! ### Pedals -/

/-- A placed event makes the queue longer by one. -/
@[simp] theorem placeEvent_length (e : PedalEvent) (q : List PedalEvent) :
    (placeEvent e q).length = q.length + 1 := by
  induction q with
  | nil => rfl
  | cons x xs ih => unfold placeEvent; split <;> simp [ih]

/-- A queue never holds more than 8 entries after an event has joined it (R165). -/
theorem insertEvent_length (e : PedalEvent) (q : List PedalEvent) : (insertEvent e q).length ≤ 8 := by
  unfold insertEvent
  split
  · simp; omega
  · simp

/-- An entry of a queue with a placed event is that event or was there. -/
theorem mem_placeEvent (e x : PedalEvent) (q : List PedalEvent) (h : x ∈ placeEvent e q) : x = e ∨ x ∈ q := by
  induction q with
  | nil => exact .inl (List.mem_singleton.mp h)
  | cons y ys ih =>
    unfold placeEvent at h
    split at h
    · rcases List.mem_cons.mp h with h | h
      · exact .inl h
      · exact .inr h
    · rcases List.mem_cons.mp h with h | h
      · exact .inr (h ▸ List.mem_cons_self)
      · rcases ih h with h | h
        · exact .inl h
        · exact .inr (List.mem_cons_of_mem _ h)

/-- Draining leaves a tail of the queue, and a target that is the old one or an entry's (R167). -/
theorem drainEvents_spec (now : Time) (q : List PedalEvent) (target : Nat) :
    (drainEvents now q target).1 <:+ q ∧
      ((drainEvents now q target).2 = target ∨ ∃ e ∈ q, (drainEvents now q target).2 = e.target) := by
  induction q generalizing target with
  | nil => exact ⟨List.suffix_refl _, .inl rfl⟩
  | cons e es ih =>
    unfold drainEvents
    split
    · obtain ⟨h1, h2⟩ := ih e.target
      refine ⟨h1.trans (List.suffix_cons _ _), .inr ?_⟩
      rcases h2 with h2 | ⟨x, hx, h2⟩
      · exact ⟨e, List.mem_cons_self, h2⟩
      · exact ⟨x, List.mem_cons_of_mem _ hx, h2⟩
    · exact ⟨List.suffix_refl _, .inl rfl⟩

/-- All that a pedal target set for CUE can do: refused in FAULT or below the ROLL priority with nothing
changed, or the owner, the queue and the target (R171). -/
theorem cuePedal_spec (p : Pedal) (position : Nat) (s : State) :
    ((s.pedal p).mode = .fault ∧ cuePedal p position s = (s, .state)) ∨
      ((s.pedal p).mode ≠ .fault ∧ (s.pedal p).owner = .roll ∧
        s.contexts.cue.priority < s.contexts.roll.priority ∧ cuePedal p position s = (s, .owned)) ∨
      ((s.pedal p).mode ≠ .fault ∧
        cuePedal p position s =
          (s.setPedal p { s.pedal p with owner := .cue, events := [], target := position }, .ok)) := by
  unfold cuePedal
  by_cases h1 : (s.pedal p).mode = .fault
  · exact .inl ⟨h1, if_pos h1⟩
  · by_cases h2 : (s.pedal p).owner = .roll ∧ s.contexts.cue.priority < s.contexts.roll.priority
    · exact .inr (.inl ⟨h1, h2.1, h2.2, by simp [h1, h2]⟩)
    · exact .inr (.inr ⟨h1, by simp only [h1, h2, if_false]⟩)

/-- All that one servo step of a pedal can do: nothing in FAULT; the state and the drive; or FAULT with its
notice (R169, R170). -/
theorem stepPedal_spec (p : Pedal) (s : State) :
    ((s.pedal p).mode = .fault ∧ stepPedal p s = s) ∨
      ((s.pedal p).mode ≠ .fault ∧ ∃ mode request, mode ≠ .fault ∧
        stepPedal p s = s.setPedal p { s.pedal p with mode := mode, drive := givenDrive s (s.pedal p) request }) ∨
      ((s.pedal p).mode ≠ .fault ∧ withinDeadband s (s.pedal p) = false ∧
        settleExceeded s (moveStart s (s.pedal p)) = true ∧
        stepPedal p s = faultPedal p (moveStart s (s.pedal p)) s) := by
  unfold stepPedal
  by_cases h1 : (s.pedal p).mode = .fault
  · exact .inl ⟨h1, if_pos h1⟩
  · refine .inr ?_
    rw [if_neg h1]
    cases h2 : withinDeadband s (s.pedal p) with
    | true =>
      refine .inl ⟨h1, ?_⟩
      by_cases h3 : (s.pedal p).target = 0
      · exact ⟨.idle, 0, by decide, by rw [if_pos rfl, if_pos h3]⟩
      · exact ⟨.holding, _, by decide, by rw [if_pos rfl, if_neg h3]⟩
    | false =>
      cases h3 : settleExceeded s (moveStart s (s.pedal p)) with
      | true => exact .inr ⟨h1, rfl, rfl, by simp⟩
      | false =>
        refine .inl ⟨h1, .moving (moveStart s (s.pedal p)), pedalRequest s (s.pedal p), ?_, by simp⟩
        intro h; cases h

/-! ### Expression -/

/-- A level request for a roll note changes the chord latch of the key's half and nothing else (R71). -/
theorem rollNoteLevel_state (k : Key) (onset : LineNo) (accent : Bool) (s : State) :
    ∃ latch, (rollNoteLevel k onset accent s).1 =
      s.setHalf (keyHalf s k) { s.half (keyHalf s k) with latch := latch } :=
  ⟨_, rfl⟩

/-- An expression step moves the effective level alone (R65). -/
theorem rampContext_frame (slow fast : Nat) (c : HalfContext) :
    rampContext slow fast c = { c with effective := (rampContext slow fast c).effective } := by
  unfold rampContext
  dsimp only
  repeat' split
  all_goals rfl

/-! ### Learning -/

/-- Learning changes the record of the key and no other, and nothing else (R154). -/
theorem applyLearning_spec (k : Key) (v : StrikeValues) (l : Launch) (velocity : Nat) (flight : Int) (s : State) :
    applyLearning k v l velocity flight s = s ∨
      (learningApplies s k l = true ∧ applyLearning k v l velocity flight s =
        s.setVoice k (learnRecord s velocity flight v (s.voice k))) := by
  unfold applyLearning
  split
  · rename_i h; exact .inr ⟨h, rfl⟩
  · exact .inl rfl

/-- Learning keeps the hold duty and the repeat gap of a record. -/
theorem learnRecord_kept (s : State) (velocity : Nat) (flight : Int) (v : StrikeValues) (r : VoicingRecord) :
    (learnRecord s velocity flight v r).holdDuty = r.holdDuty ∧
      (learnRecord s velocity flight v r).repeatGap = r.repeatGap := by
  unfold learnRecord learnFlight learnDrive
  dsimp only
  split
  · exact ⟨rfl, rfl⟩
  · split <;> exact ⟨rfl, rfl⟩

/-! ### Cue queue -/

/-- All that the entries of a push can do: some of them join the tail, the last of those becomes the order
reference, and nothing else of the cue player changes (R183). -/
theorem pushEntries_spec (cueId : Byte) (es : List (List Byte)) (n : Nat) (c : CuePlayer) :
    ∃ added : List CueEntry, (pushEntries cueId es n c).cue =
        { c with
          entries := c.entries ++ added
          orderRef := match added.getLast? with
            | some e => some e.time
            | none => c.orderRef } ∧
      (pushEntries cueId es n c).accepted = n + added.length := by
  induction es generalizing n c with
  | nil => exact ⟨[], by simp [pushEntries], rfl⟩
  | cons e es ih =>
    unfold pushEntries
    split
    · exact ⟨[], by simp, rfl⟩
    · rename_i entry _
      split
      · exact ⟨[], by simp, rfl⟩
      · split
        · exact ⟨[], by simp, rfl⟩
        · obtain ⟨added, h1, h2⟩ := ih (n + 1)
            { c with entries := c.entries ++ [entry], orderRef := some entry.time }
          refine ⟨entry :: added, ?_, ?_⟩
          · rw [h1]
            cases added with
            | nil => simp
            | cons x xs =>
              rw [List.getLast?_cons_cons, List.append_assoc, List.singleton_append]
              cases h : (x :: xs).getLast? with
              | none => simp at h
              | some y => rfl
          · rw [h2, List.length_cons]; omega

/-- A cue queue of at most 256 entries keeps to 256 (R182). -/
theorem pushEntries_length (cueId : Byte) (es : List (List Byte)) (n : Nat) (c : CuePlayer)
    (h : c.entries.length ≤ 256) : (pushEntries cueId es n c).cue.entries.length ≤ 256 := by
  induction es generalizing n c with
  | nil => exact h
  | cons e es ih =>
    unfold pushEntries
    split
    · exact h
    · split
      · exact h
      · split
        · exact h
        · refine ih _ _ ?_
          simp; omega

/-! ### Writing a setting -/

/-- All that a write of a setting can do: refused with nothing changed, or the setting and the effect its
chapter states (R199). -/
theorem writeSetting_spec (x : Setting) (v : Nat) (s : State) :
    (∃ r, r ≠ .ok ∧ writeSetting x v s = refuse s r) ∨
      (x.inRange v = true ∧ pairBroken s x v = false ∧ settingInUse s x v = false ∧
        (x.row.guarded = true → s.servicePin = true) ∧
        writeSetting x v s = answerOk (settingEffect x v (s.putSetting x v)) []) := by
  unfold writeSetting
  split
  · exact .inl ⟨.notPermitted, by decide, rfl⟩
  · rename_i hg
    split
    · exact .inl ⟨.badArgument, by decide, rfl⟩
    · rename_i hr
      split
      · exact .inl ⟨.badArgument, by decide, rfl⟩
      · rename_i hp
        split
        · exact .inl ⟨.inUse, by decide, rfl⟩
        · rename_i hu
          refine .inr ⟨by simpa using hr, by simpa using hp, by simpa using hu, fun h => ?_, rfl⟩
          simpa [h] using hg

end Sys2Proof.Machine
end

