-- ==== Sys2Proof/Laws/Memory.lean ====
section
/-! SUPPORT. The EEPROM: every write keeps the canonical form, and a read gives what was last written. -/

namespace Sys2Proof.Machine

/-! ### The canonical form -/

/-- A canonical list from some address on is canonical from any lower address on. -/
theorem Memory.wfFrom_mono (m : List Host.Cell) (low high : Nat) (h : low ≤ high)
    (wf : Memory.wfFrom high m = true) : Memory.wfFrom low m = true := by
  cases m with
  | nil => rfl
  | cons c cs =>
    simp only [Memory.wfFrom, Bool.and_eq_true, decide_eq_true_eq] at wf ⊢
    exact ⟨⟨by omega, wf.1.2⟩, wf.2⟩

/-- A byte written within the EEPROM keeps the canonical form. -/
theorem Memory.write_wfFrom (a : Nat) (b : Byte) (h : a < eepromSize) (m : List Host.Cell) (low : Nat)
    (hl : low ≤ a) (wf : Memory.wfFrom low m = true) : Memory.wfFrom low (Memory.write a b m) = true := by
  induction m generalizing low with
  | nil =>
    unfold Memory.write
    split
    · rfl
    · simp_all [Memory.wfFrom]
  | cons c cs ih =>
    have wf' := wf
    simp only [Memory.wfFrom, Bool.and_eq_true, decide_eq_true_eq] at wf
    unfold Memory.write
    split
    · rename_i e
      split
      · exact Memory.wfFrom_mono cs low (c.1 + 1) (by omega) wf.2
      · rename_i nb
        simp only [Memory.wfFrom, Bool.and_eq_true, decide_eq_true_eq]
        exact ⟨⟨hl, h, nb⟩, e ▸ wf.2⟩
    · split
      · split
        · exact wf'
        · rename_i lt nb
          simp only [Memory.wfFrom, Bool.and_eq_true, decide_eq_true_eq]
          exact ⟨⟨hl, h, nb⟩, ⟨by omega, wf.1.2⟩, wf.2⟩
      · simp only [Memory.wfFrom, Bool.and_eq_true, decide_eq_true_eq]
        exact ⟨wf.1, ih (c.1 + 1) (by omega) wf.2⟩

/-- A byte written within the EEPROM keeps the canonical form. -/
theorem Memory.write_wf (a : Nat) (b : Byte) (m : List Host.Cell) (h : a < eepromSize)
    (wf : Memory.wf m = true) : Memory.wf (Memory.write a b m) = true :=
  Memory.write_wfFrom a b h m 0 (Nat.zero_le a) wf

/-- A word written within the EEPROM keeps the canonical form. -/
theorem Memory.writeWord_wf (w : Nat) (v : Word16) (m : List Host.Cell) (h : 2 * w + 1 < eepromSize)
    (wf : Memory.wf m = true) : Memory.wf (Memory.writeWord w v m) = true :=
  Memory.write_wf _ _ _ h (Memory.write_wf _ _ _ (by omega) wf)

/-- Words written one after another keep the canonical form. -/
theorem Memory.foldl_writeWord_wf (base : Nat) (f : Nat → Word16) (l : List Nat) (m : List Host.Cell)
    (h : ∀ j ∈ l, 2 * (base + j) + 1 < eepromSize) (wf : Memory.wf m = true) :
    Memory.wf (l.foldl (fun m' j => Memory.writeWord (base + j) (f j) m') m) = true := by
  induction l generalizing m with
  | nil => exact wf
  | cons j l ih =>
    exact ih _ (fun i hi => h i (List.mem_cons_of_mem _ hi))
      (Memory.writeWord_wf _ _ _ (h j List.mem_cons_self) wf)

/-- A page of a commit keeps the canonical form. -/
theorem writePage_wf (c : Commit) (m : List Host.Cell) (wf : Memory.wf m = true) :
    Memory.wf (writePage c m) = true := by
  unfold writePage
  split
  · exact Memory.writeWord_wf _ _ _ (by decide) wf
  · split
    · exact Memory.writeWord_wf _ _ _ (by decide) wf
    · refine Memory.foldl_writeWord_wf (16 * (c.page - 1)) _ _ _ ?_ wf
      intro j hj
      have := List.mem_range.mp hj
      unfold pageLastWord at this
      unfold eepromSize
      split at this <;> omega

/-- Right after reset the EEPROM's cells are in their canonical form. -/
theorem reset_wf : Memory.wf State.reset.loader.eeprom = true := rfl

/-- A full reset keeps the canonical form, whatever became of the page in its write cycle. -/
theorem eepromAtReset_wf (s : State) (wf : Memory.wf s.loader.eeprom = true) :
    Memory.wf (eepromAtReset s) = true := by
  unfold eepromAtReset
  split
  · exact wf
  · split
    · exact writePage_wf _ _ wf
    · exact wf

/-! ### Reading after writing -/

/-- Below the first cell of a canonical list every byte is erased. -/
theorem Memory.read_below (m : List Host.Cell) (low a : Nat) (wf : Memory.wfFrom low m = true) (h : a < low) :
    Memory.read a m = erasedByte := by
  cases m with
  | nil => rfl
  | cons c cs =>
    simp only [Memory.wfFrom, Bool.and_eq_true, decide_eq_true_eq] at wf
    unfold Memory.read
    rw [if_neg (by omega), if_pos (by omega)]

/-- A byte reads as written. -/
theorem Memory.read_write_same (a : Nat) (b : Byte) (m : List Host.Cell) (low : Nat)
    (wf : Memory.wfFrom low m = true) : Memory.read a (Memory.write a b m) = b := by
  induction m generalizing low with
  | nil =>
    unfold Memory.write
    split
    · rename_i e; exact e.symm
    · simp [Memory.read]
  | cons c cs ih =>
    have wf' := wf
    simp only [Memory.wfFrom, Bool.and_eq_true, decide_eq_true_eq] at wf
    unfold Memory.write
    split
    · rename_i e
      split
      · rename_i eb
        rw [Memory.read_below cs (c.1 + 1) a wf.2 (by omega), eb]
      · simp [Memory.read]
    · rename_i ne
      split
      · rename_i lt
        split
        · rename_i eb
          rw [Memory.read_below (c :: cs) (a + 1) a _ (by omega), eb]
          simp only [Memory.wfFrom, Bool.and_eq_true, decide_eq_true_eq]
          exact ⟨⟨by omega, wf.1.2⟩, wf.2⟩
        · simp [Memory.read]
      · rename_i nlt
        unfold Memory.read
        rw [if_neg ne, if_neg nlt]
        exact ih (c.1 + 1) wf.2

/-- A write leaves every other byte as it was. -/
theorem Memory.read_write_ne (a x : Nat) (b : Byte) (m : List Host.Cell) (low : Nat)
    (wf : Memory.wfFrom low m = true) (h : x ≠ a) : Memory.read x (Memory.write a b m) = Memory.read x m := by
  induction m generalizing low with
  | nil =>
    unfold Memory.write
    split
    · rfl
    · simp only [Memory.read]
      split
      · rename_i e; exact absurd e.symm h
      · split <;> rfl
  | cons c cs ih =>
    have wf' := wf
    simp only [Memory.wfFrom, Bool.and_eq_true, decide_eq_true_eq] at wf
    unfold Memory.write
    split
    · rename_i e
      split
      · by_cases hx : x < c.1
        · rw [Memory.read_below cs (c.1 + 1) x wf.2 (by omega),
            Memory.read_below (c :: cs) c.1 x _ hx]
          simp only [Memory.wfFrom, Bool.and_eq_true, decide_eq_true_eq]
          exact ⟨⟨Nat.le_refl _, wf.1.2⟩, wf.2⟩
        · rw [Memory.read.eq_2 x c cs, if_neg (by omega), if_neg (by omega)]
      · have ne : ¬ a = x := fun k => h k.symm
        rw [Memory.read.eq_2 x (a, b) cs, Memory.read.eq_2 x c cs, e]
        simp [ne]
    · split
      · rename_i lt
        split
        · rfl
        · have below : x < a → Memory.read x (c :: cs) = erasedByte := fun hx =>
            Memory.read_below (c :: cs) c.1 x
              (by simp only [Memory.wfFrom, Bool.and_eq_true, decide_eq_true_eq]
                  exact ⟨⟨Nat.le_refl _, wf.1.2⟩, wf.2⟩) (by omega)
          rw [Memory.read.eq_2 x (a, b) (c :: cs), if_neg (fun k => h k.symm)]
          split
          · rename_i hx; exact (below hx).symm
          · rfl
      · rw [Memory.read.eq_2 x c (Memory.write a b cs), Memory.read.eq_2 x c cs, ih (c.1 + 1) wf.2]

/-- A word reads as written. -/
theorem Memory.word_writeWord_same (w : Nat) (v : Word16) (m : List Host.Cell) (h : 2 * w + 1 < eepromSize)
    (wf : Memory.wf m = true) : Memory.word (Memory.writeWord w v m) w = v.toNat := by
  have wf1 := Memory.write_wf (2 * w) ((v >>> 8).setWidth 8) m (by omega) wf
  unfold Memory.word Memory.writeWord
  rw [Memory.read_write_ne _ _ _ _ 0 wf1 (by omega), Memory.read_write_same _ _ _ 0 wf,
    Memory.read_write_same _ _ _ 0 wf1]
  simp only [BitVec.toNat_setWidth, BitVec.toNat_ushiftRight, Nat.shiftRight_eq_div_pow]
  have := v.isLt
  omega

/-- A word's write leaves every other word as it was. -/
theorem Memory.word_writeWord_ne (w x : Nat) (v : Word16) (m : List Host.Cell) (h : 2 * w + 1 < eepromSize)
    (wf : Memory.wf m = true) (ne : x ≠ w) : Memory.word (Memory.writeWord w v m) x = Memory.word m x := by
  have wf1 := Memory.write_wf (2 * w) ((v >>> 8).setWidth 8) m (by omega) wf
  unfold Memory.word Memory.writeWord
  rw [Memory.read_write_ne _ _ _ _ 0 wf1 (by omega), Memory.read_write_ne _ _ _ _ 0 wf (by omega),
    Memory.read_write_ne _ _ _ _ 0 wf1 (by omega), Memory.read_write_ne _ _ _ _ 0 wf (by omega)]

end Sys2Proof.Machine
end

