-- ==== Sys2Proof/WellFormed.lean ====
section
/-! DEFINITION. Which commands the surroundings of the part can send. -/

namespace Sys2Proof

/-- A key number (00_scope "Keys and halves"). -/
def wellFormedKey (n : Nat) : Bool := decide (1 ≤ n ∧ n ≤ 88)

/-- A lane number (01_scan_link "Lanes and segments"). -/
def wellFormedLane (n : Nat) : Bool := decide (n < 4)

/-- A transaction that is no read: its first byte, if it has one, is not 00 (R193). -/
def wellFormedWrite : List Byte → Bool
  | [] => true
  | b :: _ => b != 0

/-- A read that is given whole has at least its first byte, which makes it one (R193); the rise that ends a
transaction may come after no byte. -/
def wellFormedRead : ReadPhase → Bool
  | .fall => true
  | .rise _ => true
  | .whole n => decide (0 < n)

/-- The well-formedness check of a command. -/
def Instr.wellFormed : Instr → Bool
  | .segmentArrival _ lane _ => wellFormedLane lane
  | .strikeEndTimerExpiry _ key => wellFormedKey key
  | .gapEnd _ key => wellFormedKey key
  | .releaseTime _ key => wellFormedKey key
  | .spiWriteTransaction _ bytes => wellFormedWrite bytes
  | .spiReadTransaction _ phase => wellFormedRead phase
  | .fullReset _ => true
  | .imageLoadComplete _ _ _ => true
  | .lineTimerExpiry _ => true
  | .strikeQueueHeadTimer _ => true
  | .expressionStep _ => true
  | .heatStep _ => true
  | .pedalStep _ => true
  | .pedalFault _ _ => true
  | .pedalEventDue _ _ => true
  | .hubReport _ _ => true
  | .hubBurstEnd _ => true
  | .cueEntryDue _ => true
  | .badRequest _ => true
  | .status _ _ => true
  | .timeRead _ => true
  | .configRead _ => true
  | .configWrite _ _ => true
  | .performanceReset _ => true
  | .rollStart _ => true
  | .rollStop _ => true
  | .rollQuery _ => true
  | .apertureQuery _ => true
  | .apertureClose _ => true
  | .exprSet _ => true
  | .exprQuery _ => true
  | .playOpen _ => true
  | .playClose _ => true
  | .playCancel _ => true
  | .allOff _ => true
  | .quietSet _ => true
  | .keyAmend _ => true
  | .keyQuery _ => true
  | .keyRetire _ => true
  | .keyRestore _ => true
  | .pedalSet _ => true
  | .pedalYield _ => true
  | .pedalQuery _ => true
  | .pedalClearFault _ => true
  | .contextRead _ => true
  | .contextWrite _ => true
  | .cuePush _ => true
  | .cueFlush _ => true
  | .cueQuery _ => true
  | .voiceRead _ => true
  | .voiceWrite _ => true
  | .voiceCommit _ _ _ => true
  | .commitPageWritten _ _ => true
  | .commitAckTimeout _ => true
  | .hubByteReceived _ _ => true

end Sys2Proof
end

