-- ==== Sys2Proof/Laws/PerInstr.lean ====
section
/-! SUPPORT. One lemma per command about its operands: what its well-formedness says, which commands carry a
clock value, and that its request code, where it has one, takes some number of arguments. -/

namespace Sys2Proof.Laws.OperandRanges

open Sys2Proof Sys2Proof.Machine

/-- The lane a command names. -/
def laneOperand : Instr → Option Nat
  | .segmentArrival _ lane _ => some lane
  | _ => none

/-- The key number a command names. -/
def keyOperand : Instr → Option Nat
  | .strikeEndTimerExpiry _ key => some key
  | .gapEnd _ key => some key
  | .releaseTime _ key => some key
  | _ => none

/-- The bytes a write transaction carries. -/
def writtenBytes : Instr → Option (List Byte)
  | .spiWriteTransaction _ bytes => some bytes
  | _ => none

/-- How many bytes a read transaction that is given whole has clocked. -/
def clockedCount : Instr → Option Nat
  | .spiReadTransaction _ (.whole n) => some n
  | _ => none

/-- A command is well formed exactly when its lane, key, bytes and count, where it has them, lie in their
ranges; it carries a clock value unless it is FULL_RESET; and its request code takes some arguments. -/
def Statement (i : Instr) : Prop :=
  (i.wellFormed = true ↔
    (∀ n, laneOperand i = some n → n < 4) ∧ (∀ n, keyOperand i = some n → 1 ≤ n ∧ n ≤ 88) ∧
      (∀ bs, writtenBytes i = some bs → bs.head? ≠ some 0) ∧
      ∀ n, clockedCount i = some n → 0 < n) ∧
    (i.time = none ↔ ∃ lines, i = .fullReset lines) ∧
    ∀ code, i.requestCode = some code → ∃ count, argumentsAllowed code count = true

/-- A command without ranged operands that carries a clock value and no request code. -/
theorem of_plain (i : Instr) (hw : i.wellFormed = true) (hl : laneOperand i = none) (hk : keyOperand i = none)
    (hb : writtenBytes i = none) (hc : clockedCount i = none) (t : Time) (ht : i.time = some t)
    (hr : ∀ code, i.requestCode = some code → ∃ count, argumentsAllowed code count = true) : Statement i := by
  refine ⟨⟨fun _ => ?_, fun _ => hw⟩, ⟨fun h => ?_, fun h => ?_⟩, hr⟩
  · simp [hl, hk, hb, hc]
  · rw [ht] at h; cases h
  · obtain ⟨lines, rfl⟩ := h; cases ht

theorem fullReset (lines : InputLines) : Statement (.fullReset lines) :=
  ⟨⟨fun _ => ⟨by simp [laneOperand], by simp [keyOperand], by simp [writtenBytes], by simp [clockedCount]⟩, fun _ => rfl⟩,
    ⟨fun _ => ⟨lines, rfl⟩, fun _ => rfl⟩, fun _ h => by cases h⟩

theorem imageLoadComplete (t : Time) (acked : Bool) (framed : LaneSet) : Statement (.imageLoadComplete t acked framed) :=
  of_plain _ rfl rfl rfl rfl rfl t rfl (fun _ h => by cases h)

theorem segmentArrival (t : Time) (lane : Nat) (bytes : List Byte) : Statement (.segmentArrival t lane bytes) := by
  refine ⟨?_, ?_, fun _ h => by cases h⟩
  · simp [Instr.wellFormed, wellFormedLane, laneOperand, keyOperand, writtenBytes, clockedCount]
  · simp [Instr.time]

theorem lineTimerExpiry (t : Time) : Statement (.lineTimerExpiry t) :=
  of_plain _ rfl rfl rfl rfl rfl t rfl (fun _ h => by cases h)

theorem strikeQueueHeadTimer (t : Time) : Statement (.strikeQueueHeadTimer t) :=
  of_plain _ rfl rfl rfl rfl rfl t rfl (fun _ h => by cases h)

theorem strikeEndTimerExpiry (t : Time) (key : Nat) : Statement (.strikeEndTimerExpiry t key) := by
  refine ⟨?_, ?_, fun _ h => by cases h⟩
  · simp [Instr.wellFormed, wellFormedKey, laneOperand, keyOperand, writtenBytes, clockedCount]
  · simp [Instr.time]

theorem gapEnd (t : Time) (key : Nat) : Statement (.gapEnd t key) := by
  refine ⟨?_, ?_, fun _ h => by cases h⟩
  · simp [Instr.wellFormed, wellFormedKey, laneOperand, keyOperand, writtenBytes, clockedCount]
  · simp [Instr.time]

theorem releaseTime (t : Time) (key : Nat) : Statement (.releaseTime t key) := by
  refine ⟨?_, ?_, fun _ h => by cases h⟩
  · simp [Instr.wellFormed, wellFormedKey, laneOperand, keyOperand, writtenBytes, clockedCount]
  · simp [Instr.time]

theorem expressionStep (t : Time) : Statement (.expressionStep t) :=
  of_plain _ rfl rfl rfl rfl rfl t rfl (fun _ h => by cases h)

theorem heatStep (t : Time) : Statement (.heatStep t) :=
  of_plain _ rfl rfl rfl rfl rfl t rfl (fun _ h => by cases h)

theorem pedalStep (t : Time) : Statement (.pedalStep t) :=
  of_plain _ rfl rfl rfl rfl rfl t rfl (fun _ h => by cases h)

theorem pedalFault (t : Time) (pedal : Pedal) : Statement (.pedalFault t pedal) :=
  of_plain _ rfl rfl rfl rfl rfl t rfl (fun _ h => by cases h)

theorem pedalEventDue (t : Time) (pedal : Pedal) : Statement (.pedalEventDue t pedal) :=
  of_plain _ rfl rfl rfl rfl rfl t rfl (fun _ h => by cases h)

theorem hubReport (t : Time) (byte : Byte) : Statement (.hubReport t byte) :=
  of_plain _ rfl rfl rfl rfl rfl t rfl (fun _ h => by cases h)

theorem hubBurstEnd (t : Time) : Statement (.hubBurstEnd t) :=
  of_plain _ rfl rfl rfl rfl rfl t rfl (fun _ h => by cases h)

theorem cueEntryDue (t : Time) : Statement (.cueEntryDue t) :=
  of_plain _ rfl rfl rfl rfl rfl t rfl (fun _ h => by cases h)

theorem spiWriteTransaction (t : Time) (bytes : List Byte) : Statement (.spiWriteTransaction t bytes) := by
  refine ⟨?_, ?_, fun _ h => by cases h⟩
  · cases bytes <;>
      simp [Instr.wellFormed, wellFormedWrite, laneOperand, keyOperand, writtenBytes, clockedCount]
  · simp [Instr.time]

theorem spiReadTransaction (t : Time) (phase : ReadPhase) : Statement (.spiReadTransaction t phase) := by
  refine ⟨?_, ?_, fun _ h => by cases h⟩
  · cases phase <;>
      simp [Instr.wellFormed, wellFormedRead, laneOperand, keyOperand, writtenBytes, clockedCount]
  · simp [Instr.time]

theorem badRequest (t : Time) : Statement (.badRequest t) :=
  of_plain _ rfl rfl rfl rfl rfl t rfl (fun _ h => by cases h)

theorem status (t : Time) (pin : Bool) : Statement (.status t pin) :=
  of_plain _ rfl rfl rfl rfl rfl t rfl (fun _ h => ⟨0, by cases h; rfl⟩)

theorem timeRead (t : Time) : Statement (.timeRead t) :=
  of_plain _ rfl rfl rfl rfl rfl t rfl (fun _ h => ⟨0, by cases h; rfl⟩)

theorem configRead (t : Time) : Statement (.configRead t) :=
  of_plain _ rfl rfl rfl rfl rfl t rfl (fun _ h => ⟨1, by cases h; rfl⟩)

theorem configWrite (t : Time) (pin : Bool) : Statement (.configWrite t pin) :=
  of_plain _ rfl rfl rfl rfl rfl t rfl (fun _ h => ⟨5, by cases h; rfl⟩)

theorem performanceReset (t : Time) : Statement (.performanceReset t) :=
  of_plain _ rfl rfl rfl rfl rfl t rfl (fun _ h => ⟨0, by cases h; rfl⟩)

theorem rollStart (t : Time) : Statement (.rollStart t) :=
  of_plain _ rfl rfl rfl rfl rfl t rfl (fun _ h => ⟨0, by cases h; rfl⟩)

theorem rollStop (t : Time) : Statement (.rollStop t) :=
  of_plain _ rfl rfl rfl rfl rfl t rfl (fun _ h => ⟨0, by cases h; rfl⟩)

theorem rollQuery (t : Time) : Statement (.rollQuery t) :=
  of_plain _ rfl rfl rfl rfl rfl t rfl (fun _ h => ⟨0, by cases h; rfl⟩)

theorem apertureQuery (t : Time) : Statement (.apertureQuery t) :=
  of_plain _ rfl rfl rfl rfl rfl t rfl (fun _ h => ⟨1, by cases h; rfl⟩)

theorem apertureClose (t : Time) : Statement (.apertureClose t) :=
  of_plain _ rfl rfl rfl rfl rfl t rfl (fun _ h => ⟨1, by cases h; rfl⟩)

theorem exprSet (t : Time) : Statement (.exprSet t) :=
  of_plain _ rfl rfl rfl rfl rfl t rfl (fun _ h => ⟨4, by cases h; rfl⟩)

theorem exprQuery (t : Time) : Statement (.exprQuery t) :=
  of_plain _ rfl rfl rfl rfl rfl t rfl (fun _ h => ⟨1, by cases h; rfl⟩)

theorem playOpen (t : Time) : Statement (.playOpen t) :=
  of_plain _ rfl rfl rfl rfl rfl t rfl (fun _ h => ⟨8, by cases h; rfl⟩)

theorem playClose (t : Time) : Statement (.playClose t) :=
  of_plain _ rfl rfl rfl rfl rfl t rfl (fun _ h => ⟨7, by cases h; rfl⟩)

theorem playCancel (t : Time) : Statement (.playCancel t) :=
  of_plain _ rfl rfl rfl rfl rfl t rfl (fun _ h => ⟨2, by cases h; rfl⟩)

theorem allOff (t : Time) : Statement (.allOff t) :=
  of_plain _ rfl rfl rfl rfl rfl t rfl (fun _ h => ⟨0, by cases h; rfl⟩)

theorem quietSet (t : Time) : Statement (.quietSet t) :=
  of_plain _ rfl rfl rfl rfl rfl t rfl (fun _ h => ⟨1, by cases h; rfl⟩)

theorem keyAmend (t : Time) : Statement (.keyAmend t) :=
  of_plain _ rfl rfl rfl rfl rfl t rfl (fun _ h => ⟨5, by cases h; rfl⟩)

theorem keyQuery (t : Time) : Statement (.keyQuery t) :=
  of_plain _ rfl rfl rfl rfl rfl t rfl (fun _ h => ⟨1, by cases h; rfl⟩)

theorem keyRetire (t : Time) : Statement (.keyRetire t) :=
  of_plain _ rfl rfl rfl rfl rfl t rfl (fun _ h => ⟨1, by cases h; rfl⟩)

theorem keyRestore (t : Time) : Statement (.keyRestore t) :=
  of_plain _ rfl rfl rfl rfl rfl t rfl (fun _ h => ⟨1, by cases h; rfl⟩)

theorem pedalSet (t : Time) : Statement (.pedalSet t) :=
  of_plain _ rfl rfl rfl rfl rfl t rfl (fun _ h => ⟨3, by cases h; rfl⟩)

theorem pedalYield (t : Time) : Statement (.pedalYield t) :=
  of_plain _ rfl rfl rfl rfl rfl t rfl (fun _ h => ⟨1, by cases h; rfl⟩)

theorem pedalQuery (t : Time) : Statement (.pedalQuery t) :=
  of_plain _ rfl rfl rfl rfl rfl t rfl (fun _ h => ⟨1, by cases h; rfl⟩)

theorem pedalClearFault (t : Time) : Statement (.pedalClearFault t) :=
  of_plain _ rfl rfl rfl rfl rfl t rfl (fun _ h => ⟨1, by cases h; rfl⟩)

theorem contextRead (t : Time) : Statement (.contextRead t) :=
  of_plain _ rfl rfl rfl rfl rfl t rfl (fun _ h => ⟨1, by cases h; rfl⟩)

theorem contextWrite (t : Time) : Statement (.contextWrite t) :=
  of_plain _ rfl rfl rfl rfl rfl t rfl (fun _ h => ⟨8, by cases h; rfl⟩)

theorem cuePush (t : Time) : Statement (.cuePush t) :=
  of_plain _ rfl rfl rfl rfl rfl t rfl (fun _ h => ⟨8, by cases h; rfl⟩)

theorem cueFlush (t : Time) : Statement (.cueFlush t) :=
  of_plain _ rfl rfl rfl rfl rfl t rfl (fun _ h => ⟨0, by cases h; rfl⟩)

theorem cueQuery (t : Time) : Statement (.cueQuery t) :=
  of_plain _ rfl rfl rfl rfl rfl t rfl (fun _ h => ⟨0, by cases h; rfl⟩)

theorem voiceRead (t : Time) : Statement (.voiceRead t) :=
  of_plain _ rfl rfl rfl rfl rfl t rfl (fun _ h => ⟨1, by cases h; rfl⟩)

theorem voiceWrite (t : Time) : Statement (.voiceWrite t) :=
  of_plain _ rfl rfl rfl rfl rfl t rfl (fun _ h => ⟨39, by cases h; rfl⟩)

theorem voiceCommit (t : Time) (pin : Bool) (acked : Bool) : Statement (.voiceCommit t pin acked) :=
  of_plain _ rfl rfl rfl rfl rfl t rfl (fun _ h => ⟨0, by cases h; rfl⟩)

theorem commitPageWritten (t : Time) (acked : Bool) : Statement (.commitPageWritten t acked) :=
  of_plain _ rfl rfl rfl rfl rfl t rfl (fun _ h => by cases h)

theorem commitAckTimeout (t : Time) : Statement (.commitAckTimeout t) :=
  of_plain _ rfl rfl rfl rfl rfl t rfl (fun _ h => by cases h)

theorem hubByteReceived (t : Time) (byte : Byte) : Statement (.hubByteReceived t byte) :=
  of_plain _ rfl rfl rfl rfl rfl t rfl (fun _ h => by cases h)

end Sys2Proof.Laws.OperandRanges
end

