-- ==== Sys2Proof/Tests/Slice0.lean ====
section
/-! SUPPORT. Our own tests: the checks of WellFormed, the manual's worked examples, and for every statement
with hypotheses a state that meets them. They are checked one after another, not in parallel: a thread for each
would take more memory than the check allows. -/

set_option Elab.async false

namespace Sys2Proof.Machine

/-! ### WellFormed refuses ill-formed commands -/

theorem test_wellFormed_lane : (Instr.segmentArrival 0 4 []).wellFormed = false := by decide

theorem test_wellFormed_strike_key : (Instr.strikeEndTimerExpiry 0 0).wellFormed = false := by decide

theorem test_wellFormed_gap_key : (Instr.gapEnd 0 89).wellFormed = false := by decide

theorem test_wellFormed_release_key : (Instr.releaseTime 0 0).wellFormed = false := by decide

theorem test_wellFormed_write_read : (Instr.spiWriteTransaction 0 [0, 8]).wellFormed = false := by decide

theorem test_wellFormed_read_whole : (Instr.spiReadTransaction 0 (.whole 0)).wellFormed = false := by decide

theorem test_wellFormed_bounds : (Instr.segmentArrival 0 3 []).wellFormed = true ∧
    (Instr.gapEnd 0 1).wellFormed = true ∧ (Instr.gapEnd 0 88).wellFormed = true ∧
    (Instr.spiReadTransaction 0 (.whole 1)).wellFormed = true ∧
    (Instr.spiReadTransaction 0 (.rise 0)).wellFormed = true ∧
    (Instr.spiWriteTransaction 0 []).wellFormed = true := by decide

/-! ### The scan link's worked examples (01_scan_link) -/

theorem test_header_clean : checkHeader 0x5A0412 0x16 = .clean 0x5A0412 := by decide +kernel

theorem test_header_one_bit : checkHeader 0x5A0012 0x16 = .corrected 0x5A0412 := by decide +kernel

theorem test_header_two_bits : checkHeader 0x5A0010 0x16 = .uncorrectable := by decide +kernel

theorem test_crc_reference :
    crc16 [0x31, 0x32, 0x33, 0x34, 0x35, 0x36, 0x37, 0x38, 0x39] = 0x29B1 := by decide +kernel

theorem test_missing_count : missingCount 1044 (some 1042) = 1 ∧ missingCount 1042 (some 1041) = 0 ∧
    missingCount 0 (some 65535) = 0 := by decide

/-! ### The roll's worked examples (02_roll_tracking) -/

theorem test_geometry : (geometryOf 16384 28800 922).pitch = 254 ∧ (geometryOf 16384 28800 922).halfWidth = 5 ∧
    ([0, 7, 50, 51, 101] : List Channel).map (fun c => (geometryOf 16384 28800 922).pixel[c])
      = [222, 333, 1016, 1031, 1825] := by decide +kernel

theorem test_smoothing : smoothed 16384 16440 = 16391 ∧ smoothed 16397 16376 = 16395 ∧
    smoothed 28792 28736 = 28785 ∧ smoothed 28785 28800 = 28786 := by decide

/-- A line of paper from pixel 124 to pixel 1923 with light on both sides. -/
def paperLanes : Vector LanePixels 4 :=
  #v[BitVec.allOnes 512 <<< 388, 0, 0, BitVec.ofNat 512 (2 ^ 124 - 1)]

theorem test_edges : validEdges (workingGeometryOf Settings.defaults) paperLanes = some (124, 1923) := by
  decide +kernel

/-! ### One hole (03_the_aperture_table) -/

theorem test_hole_opens : lineTransition 2 3 (some (.key 39)) 7001 2000 true
    { blind := false, life := .tentative 7000 0 1 }
    = ({ blind := false, life := .opened 7000 0 (some (.key 39)) },
        some (.confirmed 7000 0 (some (.key 39)))) := by decide

theorem test_hole_bridged : lineTransition 2 3 none 7013 26000 true
    { blind := false, life := .bridging 7000 0 (some (.key 39)) 7011 22000 2 }
    = ({ blind := false, life := .opened 7000 0 (some (.key 39)) }, none) := by decide

theorem test_hole_closes : lineTransition 2 3 none 7034 68000 false
    { blind := false, life := .bridging 7000 0 (some (.key 39)) 7031 62000 3 }
    = ({ blind := false, life := .empty }, some (.closed (some (.key 39)) 62000)) := by decide

theorem test_speck : lineTransition 2 3 none 7001 2000 false { blind := false, life := .tentative 7000 0 1 }
    = ({ blind := false, life := .empty }, some .speck) := by decide

theorem test_fold : foldedKey 89 = 76 ∧ foldedKey 0 = 11 ∧ foldedKey 88 = 87 ∧ foldedKey 1 = 0 := by decide

/-! ### Expression (04_expression) -/

/-- The BASS context of the crescendo example. -/
def rising : HalfContext := { HalfContext.atReset 512 with crescendo := .fast }

theorem test_crescendo : (rampContext 6 38 rising).effective = 8230 ∧
    (rampContext 6 38 { rising with effective := 16362 }).effective = 16368 ∧
    outputLevel 320 { rising with effective := 13892, sforzando := true } = 1023 ∧
    outputLevel 320 { rising with effective := 11992 } = 749 := by decide

theorem test_chord : chordPart 4 614 9003 (some { start := 9000, level := 600 }) =
      (600, some { start := 9000, level := 600 }) ∧
    notePart 160 256 true 600 = 760 ∧ notePart 160 192 true 600 = 570 ∧ notePart 160 192 false 623 = 467 ∧
    chordPart 4 623 9005 (some { start := 9000, level := 600 }) =
      (623, some { start := 9005, level := 623 }) := by decide

/-! ### Strike computation (06_strike_computation) -/

/-- The strike values of the worked note, its sound time 120000. -/
def workedValues : StrikeValues := strikeValuesOf 20 450 VoicingRecord.factory 0 600 120000

theorem test_strike_table : workedValues.velocity = 272 ∧ workedValues.interval = 5 ∧
    workedValues.fraction = 166 ∧ workedValues.duty = 638 ∧ workedValues.flight = 355 ∧
    workedValues.planned = 84500 := by decide

theorem test_strike_shifted : (strikeValuesOf 20 450 VoicingRecord.factory 1000 600 120000).duty = 579 := by
  decide

theorem test_strike_chord : (strikeValuesOf 20 450 VoicingRecord.factory 0 760 0).duty = 737 ∧
    (strikeValuesOf 20 450 VoicingRecord.factory 0 760 0).flight = 312 ∧
    (strikeValuesOf 20 450 VoicingRecord.factory 0 300 0).duty = 445 ∧
    (strikeValuesOf 20 450 VoicingRecord.factory 0 300 0).flight = 514 := by decide

/-! ### Learning (08_hammer_sensing) -/

/-- Learning on with the default gains. -/
def learning : State := State.reset.putSetting .learn 1

theorem test_learning : learnRecord learning 245 371 workedValues VoicingRecord.factory =
    { VoicingRecord.factory with
      duties := #v[180, 230, 300, 380, 470, 562, 684, 900]
      flights := #v[1500, 1050, 780, 600, 480, 401, 331, 260] } := by decide +kernel

theorem test_learning_trim :
    (learnRecord learning 245 371 { workedValues with shift := 1000 } VoicingRecord.factory).softTrim = -53 := by
  decide +kernel

theorem test_learning_order : (learnDuty (-104) 4 { workedValues with interval := 5, fraction := 19 }
    { VoicingRecord.factory with duties := #v[180, 230, 300, 380, 470, 480, 680, 900] }).duties
      = #v[180, 230, 300, 380, 470, 470, 678, 900] := by decide +kernel

theorem test_learning_top : (learnDuty (-30) 4 { workedValues with interval := 6, fraction := 256 }
    VoicingRecord.factory).duties[7] = 893 := by decide +kernel

theorem test_measured : measuredVelocity 50 2040 = 245 ∧
    measuredFlight 37100 { actual := 0, limit := 0, mode := .normal, lateness := 0 } = 371 := by decide

/-! ### Pedals (09_pedals) -/

/-- The SUSTAIN pedal of the worked engage at a position and a target. -/
def engaged (position target : Nat) : PedalRecord := { PedalRecord.atReset with position := position, target := target }

theorem test_pedal_request : pedalRequest State.reset (engaged 0 1000) = 1023 ∧
    pedalRequest State.reset (engaged 420 1000) = 873 ∧ pedalRequest State.reset (engaged 975 1000) = 318 ∧
    pedalRequest State.reset (engaged 1005 1000) = 288 ∧ pedalRequest State.reset (engaged 1005 0) = 0 := by
  decide +kernel

/-! ### Notices (11_host_port) -/

/-- A queue of 31 notices. -/
def crowded : State :=
  State.reset.setPort { State.reset.port with
    notices := List.replicate 31 { kind := .keyThermal, lost := false, time := 0, fields := [52] } }

theorem test_notice_full :
    (((crowded.raise .cueLow []).raise .phraseAbort []).raise .trackLost []).port.noticesDiscarded = 2 ∧
    (((crowded.raise .cueLow []).raise .phraseAbort []).raise .trackLost []).port.notices.getLast? =
      some { kind := .cueLow, lost := true, time := 0, fields := [] } := by decide

/-! ### The image (11_host_port) -/

theorem test_image_words : imageWord Settings.defaults (Vector.replicate 88 VoicingRecord.factory) 27 = 16000 ∧
    imageWord Settings.defaults (Vector.replicate 88 VoicingRecord.factory) 30 = 0 ∧
    imageWord Settings.defaults (Vector.replicate 88 VoicingRecord.factory) 31 = 60000 ∧
    imageWord Settings.defaults (Vector.replicate 88 VoicingRecord.factory) 64 = 180 ∧
    imageWord Settings.defaults (Vector.replicate 88 VoicingRecord.factory) 83 = 0xFFFF ∧
    imageWord Settings.defaults (Vector.replicate 88 VoicingRecord.factory) 50 = 0xFFFF := by decide +kernel

theorem test_damaged_image :
    loadedSetting (Memory.writeWord 27 1500 []) .poolCapacity = 16000 ∧
    loadedSetting (Memory.writeWord 24 300 []) .velMin = 300 ∧
    loadedSetting (Memory.writeWord 24 300 []) .velMax = 450 := by decide +kernel

/-! ### Small states -/

/-- The part after a load, its step timers running. -/
def ready : State :=
  { State.reset with
    loader := { State.reset.loader with ready := true, outcome := some .absent }
    expression := { State.reset.expression with nextStep := some 1000 }
    heat := { State.reset.heat with nextStep := some 1000 }
    pedals := { State.reset.pedals with nextStep := some 1000 } }

/-- A state with one frame in the intake. -/
def offered (s : State) (f : List Byte) : State := s.setPort { s.port with intake := [f] }

/-- A state with one request in the intake, tag 07. -/
def asked (s : State) (code : Nat) (arguments : List Byte) : State := offered s (requestFrame code 7 arguments)

/-- A request stands at the head, whatever the clock comes to; a KEY_FIND would be answered on the way. -/
theorem asked_atHead (s : State) (code : Nat) (arguments : List Byte) (t : Time) (hr : s.loader.ready = true)
    (hp : s.port.responses.length < 16) (hc : byteOf code ≠ 0x1B := by decide) :
    RequestAtHead ((asked s code arguments).arrive t) code 7 arguments := by
  obtain ⟨_, _, _, h, h1, h2, _⟩ := (asked s code arguments).arrive_of_other t
    fun f hf => by cases hf; exact hc
  rw [h]
  exact ⟨hr, by rw [h2]; exact hp, by rw [h1]; rfl⟩

/-- A state with a key in a phase. -/
def withKey (s : State) (k : Key) (p : KeyPhase) : State := s.setPhase k p

/-- A note of cue id 9, to sound at 120000. -/
def cueNote : Note := { claimant := { source := .cue, id := 9 }, sound := 120000, level := 600, release := none }

/-- A note of roll channel 46, to sound at 120000. -/
def rollNote : Note := { cueNote with claimant := { source := .roll, id := 46 } }

/-- The fields of a launch at 100. -/
def launched : Launch := { actual := 100, limit := 50600, mode := .normal, lateness := 0 }

/-- A key in PENDING with its entry, TIMED. -/
def queued (k : Key) (n : Note) : State :=
  { withKey ready k (.pending n workedValues) with
    queue := { entries := [{ key := k, planned := 84500 }], status := .timed } }

/-- A key in a sensed strike. -/
def striking (k : Key) (n : Note) : State := withKey ready k (.strike n workedValues launched true 50600 none)

/-- A key in HOLD since 0. -/
def holding (k : Key) (n : Note) : State := withKey ready k (.hold n workedValues launched 180 0)

/-- A cue player with a queue. -/
def cued (entries : List CueEntry) : State := ready.setCue { ready.cue with entries := entries }

/-- The good segment of lane 2 and line 1042 with all its pixels light. -/
def goodBytes : List Byte :=
  [0x5A, 0x04, 0x12, 0x16] ++ List.replicate 64 0xFF ++ field16 (crc16 (List.replicate 64 0xFF)).toNat

/-- The line 1042 being assembled with nothing delivered but lane 0. -/
def partLine : CurrentLine :=
  { number := 1042, required := 0b1111, delivered := 0b0001, lanes := Vector.replicate 4 0, arrival := 0 }

/-- The tracker in a state. -/
def tracking (m : TrackerMode) : State := ready.setTracker { ready.tracker with mode := m }

/-- The state that a command answers, when it answers one. -/
def nextOf : Host.Outcome State Fault Refusal → Option State
  | .next s => some s
  | _ => none

/-! ### One step of the manual's worked examples -/

theorem test_heat_first_step : (nextOf (exec (.heatStep 1000) (withKey ready 32
    (.hold cueNote workedValues launched 180 0)))).map (fun s => s.heatOf 32) = some 180 := by decide +kernel

theorem test_heat_figure : min 262143 (599 + 200 - 599 / 256) = 797 ∧ min 262143 (47990 + 200 - 47990 / 256) = 48003 :=
  by decide

theorem test_hub_bad_check : (nextOf (exec (.hubReport 30100 0xD7) (ready.setHub
    { ready.hub with burst := [0x28, 0x06, 0xF8] }))).map (fun s => s.hub.discarded) = some 1 := by decide +kernel

theorem test_hub_ends_strike : (nextOf (exec (.hubReport 37320 0xD7) ((striking 39 cueNote).setHub
    { ready.hub with burst := [0x28, 0x07, 0xF8] }))).map
      (fun s => ((s.key 39).lastVelocity, phaseNumber (s.key 39).phase)) = some (some 245, 3) := by decide +kernel

theorem test_key_ninety_discarded : (nextOf (exec (.hubReport 31000 0xA5) (ready.setHub
    { ready.hub with burst := [0x5A, 0x07, 0xF8] }))).map (fun s => s.hub.discarded) = some 1 := by decide +kernel

theorem test_contest_owned : (nextOf (exec (.playOpen 5)
    (asked (queued 59 { rollNote with claimant := { source := .roll, id := 66 } }) 0x14
      ([60, 9] ++ field16 700 ++ fieldTime 120000)))).map
      (fun s => (s.owner 59, s.port.responses.map Response.data)) =
    some (some { source := .cue, id := 9 }, [[60, 1]]) := by decide +kernel

theorem test_narrowing : (nextOf (exec (.contextWrite 5) (asked (queued 69 rollNote) 0x25 [0, 1, 1, 0, 21, 66, 1, 0]))).map
    (fun s => (phaseNumber (s.key 69).phase, s.queue.entries)) = some (0, []) := by decide +kernel

/-- The cue queue of the phrase without its end, after its push, its times from 0. -/
def phrase : List CueEntry :=
  [.on 59 3 (.given 500) 300000, .on 63 3 .follow 300000, .pedal .sustain 800 300000, .off none 3 700000]

theorem test_phrase_begins : (nextOf (exec (.cueEntryDue 50000)
    ((cued phrase).putSetting .cueLow 2))).map
      (fun s => (s.cue.entries.length, s.cue.phraseOpen, s.port.notices.map Notice.kind)) =
    some (2, true, [NoticeKind.cueLow]) := by
  decide +kernel

/-! ### For every statement with hypotheses, states that meet them: the step, requests, invariants -/

theorem test_witness_StepTakesFrontCommand :
    ({ ready with pending := [.rollStart 5, .timeRead 6] }).pending = .rollStart 5 :: [.timeRead 6] := rfl

/-- Only key 40 is in HOLD. -/
theorem holding_only (k : Key) (n : Note) (v : StrikeValues) (l : Launch) (d : Nat) (start : Time)
    (h : ((holding 39 cueNote).key k).phase = .hold n v l d start) : k = 39 ∧ start = 0 := by
  by_cases e : k = 39
  · subst e
    rw [holding, withKey, State.key_setPhase_same] at h
    cases h
    exact ⟨rfl, rfl⟩
  · rw [holding, withKey, State.key_setPhase_ne _ _ _ _ (fun x => e x.symm)] at h
    have : ∀ j : Key, (ready.key j).phase = .idle := by decide +kernel
    rw [this k] at h
    cases h

/-- The last microsecond before the hold timeout, and the timeout itself, with an empty intake; and a KEY_FIND at
the head of the intake. -/
theorem test_witness_ClockArrival :
    (holding 39 cueNote).port.intake = [] ∧ RequestAtHead (asked ready 0x1B [9]) 0x1B 7 [9] ∧
    (∀ (k : Key) (n : Note) (v : StrikeValues) (l : Launch) (d : Nat) (start : Time),
      ((holding 39 cueNote).key k).phase = .hold n v l d start → (holding 39 cueNote).setting .holdTimeout ≠ 0 →
        ((holding 39 cueNote).key k).flags.holdExempt = false →
          ¬ reached (holding 39 cueNote).clock
              (timePlus start (1000000 * ((holding 39 cueNote).setting .holdTimeout : Int))) ∧
            ((29999999 : Time) - (holding 39 cueNote).clock).toNat <
              (timePlus start (1000000 * ((holding 39 cueNote).setting .holdTimeout : Int))
                - (holding 39 cueNote).clock).toNat) ∧
    (((holding 39 cueNote).key 39).phase = .hold cueNote workedValues launched 180 0 ∧
      (holding 39 cueNote).setting .holdTimeout ≠ 0 ∧ ((holding 39 cueNote).key 39).flags.holdExempt = false ∧
      (30000000 : Time) = timePlus 0 (1000000 * ((holding 39 cueNote).setting .holdTimeout : Int)) ∧
      ¬ reached (holding 39 cueNote).clock 30000000 ∧
      ((30000000 : Time) - (holding 39 cueNote).clock).toNat ≤ ((30000000 : Time) - (holding 39 cueNote).clock).toNat ∧
      (∀ j : Key, j ≠ 39 → isHold ((holding 39 cueNote).key j).phase = false) ∧
      (holding 39 cueNote).queue.status ≠ .waiting ∧ (holding 39 cueNote).port.notices.length < 32) := by
  refine ⟨rfl, ⟨rfl, by decide, rfl⟩, fun k n v l d start h _ _ => ?_, by decide +kernel⟩
  obtain ⟨-, rfl⟩ := holding_only k n v l d start h
  decide +kernel

/-- A KEY_FIND at the head is answered although a command waits, and the request behind it is executed. -/
theorem test_keyFind_before_command : (nextOf (exec (.timeRead 5) (ready.setPort { ready.port with
      intake := [requestFrame 0x1B 6 [9], requestFrame 0x02 7 []] }))).map
    (fun s => (s.port.intake, s.port.responses.map fun r => (r.code, r.tag))) = some ([], [(0x1B, 6), (0x02, 7)]) := by
  decide +kernel

theorem test_witness_IdleStepAnswersKeyFind :
    (asked ready 0x1B [9]).pending = [] ∧ RequestAtHead (asked ready 0x1B [9]) 0x1B 7 [9] :=
  ⟨rfl, by decide +kernel, by decide +kernel, by decide +kernel⟩

/-- A response queue of 15, one short of full. -/
def nearlyFull : State :=
  ready.setPort { ready.port with
    responses := List.replicate 15 { code := 8, tag := 1, result := .state, overflow := false, data := [] } }

/-- A response queue one short of full, and the load not complete. -/
theorem test_witness_RequestsAnsweredOnce :
    ((Instr.rollStart 5).time = some 5 ∧ (Instr.rollStart 5).requestCode = some 8 ∧
      ∀ s : State, s = asked nearlyFull 8 [] →
        (s.arrive 5).loader.ready = true ∧ (s.arrive 5).port.responses.length < 16 ∧
        (s.arrive 5).port.intake.head? = some (requestFrame 8 7 []) ∧ frameGood (requestFrame 8 7 []) = true ∧
        (frameCode (requestFrame 8 7 [])).toNat = 8) ∧
    (((asked State.reset 8 []).arrive 5).loader.ready = false ∧
      ((asked State.reset 8 []).arrive 5).port.responses.length < 16 ∧
      ((asked State.reset 8 []).arrive 5).port.intake.head? = some (requestFrame 8 7 [])) := by
  refine ⟨⟨rfl, rfl, fun s h => ?_⟩, by decide +kernel⟩
  subst h
  decide +kernel

theorem test_witness_RefusedRequestsChangeNothing : ∃ s' r,
    (Instr.rollStart 5).time = some 5 ∧ (Instr.rollStart 5).requestCode = some 8 ∧ (8 : Nat) ≠ 0x26 ∧
    exec (.rollStart 5) (asked (tracking .seeking) 8 []) = .next s' ∧
    s'.port.responses = ((asked (tracking .seeking) 8 []).arrive 5).port.responses ++ [r] ∧ r.result ≠ .ok :=
  ⟨_, { code := 8, tag := 7, result := .state, overflow := false, data := [] }, rfl, rfl, by decide, rfl,
    by decide +kernel, by decide⟩

/-- A frame too short, one too long, one with a wrong count, one with a wrong number of arguments. -/
theorem test_witness_BadFramesAnsweredBadRequest :
    (∀ f ∈ ([[2], List.replicate 65 65, [3, 8, 7, 0], [4, 8, 7, 0]] : List (List Byte)),
      ((offered ready f).arrive 5).port.responses.length < 16 ∧ ((offered ready f).arrive 5).port.intake.head? = some f) ∧
    ([2] : List Byte).length < 3 ∧ 64 < (List.replicate 65 (65 : Byte)).length ∧
    (([3, 8, 7, 0] : List Byte).getD 0 0).toNat ≠ ([3, 8, 7, 0] : List Byte).length ∧
    argumentsAllowed (([4, 8, 7, 0] : List Byte).getD 1 0).toNat (([4, 8, 7, 0] : List Byte).length - 3) = false := by
  decide +kernel

theorem test_witness_OnlyNamedCommandsChangeTables :
    ∃ s', exec (.heatStep 1000) (holding 39 cueNote) = .next s' := ⟨_, rfl⟩

/-- A sensed strike that claims its duty, on a key that is not MUTE, with a command waiting. -/
theorem test_witness_PoolNeverOverdrawn : PoolSafe { striking 39 cueNote with pending := [.heatStep 1000] } ∧
    ∃ s', step { striking 39 cueNote with pending := [.heatStep 1000] } = .next s' :=
  ⟨by unfold PoolSafe; decide +kernel, _, rfl⟩

theorem test_witness_NoHotKeyHeld : HeatSafe { holding 39 cueNote with pending := [.heatStep 1000] } ∧
    ∃ s', step { holding 39 cueNote with pending := [.heatStep 1000] } = .next s' :=
  ⟨by unfold HeatSafe; decide +kernel, _, rfl⟩

theorem test_witness_QueueHoldsPendingKeys :
    QueueSafe { queued 39 cueNote with pending := [.strikeQueueHeadTimer 84500] } ∧
    ∃ s', step { queued 39 cueNote with pending := [.strikeQueueHeadTimer 84500] } = .next s' := by
  refine ⟨⟨by decide +kernel, fun e he => ?_, by decide +kernel⟩, _, rfl⟩
  obtain rfl := List.mem_singleton.mp he
  exact ⟨cueNote, workedValues, by decide +kernel, by decide +kernel⟩

theorem test_witness_VoicingKeepsOrder : VoicingSafe { striking 39 cueNote with pending := [.hubReport 5 0] } ∧
    ∃ s', step { striking 39 cueNote with pending := [.hubReport 5 0] } = .next s' :=
  ⟨by unfold VoicingSafe; decide +kernel, _, rfl⟩

/-- The default settings lie in their ranges. -/
theorem ready_settings : SettingsSafe ready := by
  refine ⟨fun x => ?_, by decide +kernel, by decide +kernel⟩
  cases x <;> decide +kernel

theorem test_witness_RangesKept :
    PedalsSafe { cued [.pedal .sustain 1023 0] with pending := [.cueEntryDue 5] } ∧
    ExpressionSafe { ready with pending := [.expressionStep 1000] } ∧
    ContextsSafe { ready with pending := [.contextWrite 5] } ∧
    EepromSafe { ready with loader := { ready.loader with eeprom := Memory.writeWord 1828 7 [] } } ∧
    ∃ s', step { cued [.pedal .sustain 1023 0] with pending := [.cueEntryDue 5] } = .next s' := by
  refine ⟨⟨ready_settings, ?_, ?_, ?_⟩, ⟨ready_settings, ?_, ?_⟩, ?_, ?_, _, rfl⟩
  · exact ⟨by decide, by decide, by decide, by decide, by decide, by decide, by decide⟩
  · exact ⟨by decide, by decide, by decide, by decide, by decide, by decide, by decide⟩
  · intro p position time h
    cases List.mem_singleton.mp h
    decide
  · exact ⟨by decide, by decide, by decide, by decide, by decide, fun l h => by cases h⟩
  · exact ⟨by decide, by decide, by decide, by decide, by decide, fun l h => by cases h⟩
  · unfold ContextsSafe; decide
  · unfold EepromSafe; decide +kernel

theorem test_witness_QueuesKeepBounds :
    CueSafe (ready.setCue { entries := [.endPhrase 5], orderRef := some 5, phraseOpen := false, dropped := 0 }) ∧
    PortSafe { crowded with pending := [.timeRead 5] } ∧
    ∃ s', step { crowded with pending := [.timeRead 5] } = .next s' :=
  ⟨⟨by decide, trivial, fun e h => by cases h; rfl⟩, by unfold PortSafe; decide +kernel, _, rfl⟩

/-- Channel 46 open on key 40. -/
def opened46 : State :=
  { tracking .locked with
    apertures := { ready.apertures with
      records := ready.apertures.records.set 46 { blind := false, life := .opened 1 0 (some (.key 39)) } } }

/-- Channel 46 open on key 40, and the roll's note of that channel in HOLD there. -/
def rollPlaying : State := withKey opened46 39 (.hold rollNote workedValues launched 180 0)

theorem test_witness_RollNotesAnswerToApertures :
    AperturesSafe { rollPlaying with pending := [.rollStop 5] } ∧
    RollNotesSafe { rollPlaying with pending := [.rollStop 5] } ∧
    ∃ s', step { rollPlaying with pending := [.rollStop 5] } = .next s' := by
  refine ⟨fun h => absurd rfl h, fun k => ?_, _, rfl⟩
  by_cases e : k = 39
  · subst e
    have hp : (State.key { rollPlaying with pending := [.rollStop 5] } 39).phase =
        .hold rollNote workedValues launched 180 0 := by decide +kernel
    rw [hp]
    exact ⟨rfl, fun n h _ _ => ⟨46, by cases h; decide, by decide +kernel⟩⟩
  · have hp : ∀ j : Key, j ≠ 39 →
        (State.key { rollPlaying with pending := [.rollStop 5] } j).phase = .idle := by decide +kernel
    rw [hp k e]
    exact ⟨rfl, fun n h => by cases h⟩

/-! ### Resets and the load -/

theorem test_witness_FullResetCompletes : ready.loader.commit = none := rfl

/-- An EEPROM that does not answer, and an erased one that does. -/
theorem test_witness_LoadOfRefusedImage :
    (State.reset.arrive 60000).loader.ready = false ∧ (State.reset.arrive 60000).port.notices.length < 32 ∧
    Memory.word (State.reset.arrive 60000).loader.eeprom 0 ≠ 0x4E38 := by decide +kernel

/-- An EEPROM with a signature, a length and the CRC they give. -/
def goodImage : List Host.Cell :=
  Memory.writeWord 1828 (crc16 (imageBytes (Memory.word (Memory.writeWord 1 1828 (Memory.writeWord 0 0x4E38 [])))))
    (Memory.writeWord 1 1828 (Memory.writeWord 0 0x4E38 []))

/-- Some function gives every setting its word's value. -/
theorem settings_given (m : List Host.Cell) : ∃ v : Setting → Nat, ∀ x : Setting, v x =
    if x.row.wide = true then
      if Memory.word m x.row.word ≠ 0xFFFF ∧ Memory.word m (x.row.word + 1) ≠ 0xFFFF ∧
        x.row.lo ≤ 65536 * Memory.word m x.row.word + Memory.word m (x.row.word + 1) ∧
        65536 * Memory.word m x.row.word + Memory.word m (x.row.word + 1) ≤ x.row.hi
      then 65536 * Memory.word m x.row.word + Memory.word m (x.row.word + 1) else x.row.dflt
    else if Memory.word m x.row.word ≠ 0xFFFF ∧ x.row.lo ≤ Memory.word m x.row.word ∧
        Memory.word m x.row.word ≤ x.row.hi then Memory.word m x.row.word else x.row.dflt := ⟨_, fun _ => rfl⟩

theorem test_witness_LoadOfGoodImage : ∃ a : State,
    ({ State.reset with loader := { State.reset.loader with eeprom := goodImage } } : State).arrive 60000 = a ∧
    a.loader.ready = false ∧ a.loader.eeprom = goodImage ∧ Memory.word goodImage 0 = 0x4E38 ∧
    Memory.word goodImage 1 = 1828 ∧
    (crc16 (imageBytes (Memory.word goodImage))).toNat = Memory.word goodImage 1828 ∧
    ∃ v : Setting → Nat, ∀ x : Setting, v x =
      if x.row.wide = true then
        if Memory.word goodImage x.row.word ≠ 0xFFFF ∧ Memory.word goodImage (x.row.word + 1) ≠ 0xFFFF ∧
          x.row.lo ≤ 65536 * Memory.word goodImage x.row.word + Memory.word goodImage (x.row.word + 1) ∧
          65536 * Memory.word goodImage x.row.word + Memory.word goodImage (x.row.word + 1) ≤ x.row.hi
        then 65536 * Memory.word goodImage x.row.word + Memory.word goodImage (x.row.word + 1) else x.row.dflt
      else if Memory.word goodImage x.row.word ≠ 0xFFFF ∧ x.row.lo ≤ Memory.word goodImage x.row.word ∧
          Memory.word goodImage x.row.word ≤ x.row.hi then Memory.word goodImage x.row.word else x.row.dflt := by
  have wf : Memory.wf (Memory.writeWord 1 1828 (Memory.writeWord 0 0x4E38 [])) = true := by decide
  have other : ∀ w, w ≠ 1828 → Memory.word goodImage w =
      Memory.word (Memory.writeWord 1 1828 (Memory.writeWord 0 0x4E38 [])) w :=
    fun w h => Memory.word_writeWord_ne _ _ _ _ (by decide) wf h
  have bytes : imageBytes (Memory.word goodImage) =
      imageBytes (Memory.word (Memory.writeWord 1 1828 (Memory.writeWord 0 0x4E38 []))) := by
    unfold imageBytes
    refine List.flatMap_congr fun w hw => ?_
    rw [other w (by have := List.mem_range.mp hw; omega)]
  obtain ⟨keys, queue, port, h, -, -, -⟩ :=
    ({ State.reset with loader := { State.reset.loader with eeprom := goodImage } } : State).arrive_of_other 60000
      fun f hf => by cases hf
  refine ⟨_, rfl, by rw [h]; rfl, by rw [h], ?_, ?_, ?_, settings_given goodImage⟩
  · rw [other 0 (by decide)]; decide +kernel
  · rw [other 1 (by decide)]; decide +kernel
  · rw [bytes]
    exact (Memory.word_writeWord_same _ _ _ (by decide) wf).symm

theorem test_witness_PerformanceResetCompletes :
    RequestAtHead ((asked (striking 39 cueNote) 5 []).arrive 5) 5 7 [] := asked_atHead _ _ _ _ rfl (by decide)

/-! ### Scan link, tracker, apertures, expression -/

/-- The segment's checks of R1 to R5. -/
theorem goodBytes_good : GoodSegment 2 goodBytes 0x5A0412 := by
  refine ⟨rfl, by decide +kernel, by decide, by decide, ?_⟩
  have hv : valueOf (goodBytes.drop 68) = (crc16 (List.replicate 64 0xFF)).toNat :=
    valueOf_field16 _ (BitVec.isLt _)
  rw [hv]
  rfl

/-- That segment with one bit of its header inverted. -/
def correctedBytes : List Byte := [0x5A, 0x00, 0x12, 0x16] ++ goodBytes.drop 4

/-- The reference line 1041 or none with a pending current line; lane 2 alone enabled, or lane 2 the last of the
line, with no missing line and with three; the current line one behind the segment's; the segment's line that of
the reference, one behind it, one behind the current line, and lanes outside each set; a current line that lane
2 alone drops and follows with its own; the same segment with a header bit to correct. -/
theorem test_witness_SegmentsAssembleLines :
    (∀ s : State, s = ready.setScan { ready.scan with reference := some 1041 } →
      LaneReady (s.arrive 5) 2 ∧ (s.arrive 5).scan.current = none ∧ (s.arrive 5).scan.restartPending = false ∧
      (s.arrive 5).scan.reference = some 1041 ∧ (headerLine 0x5A0412 - 1041).toNat = 1 ∧
      (laneEnable (s.arrive 5)).getLsbD 2 = true ∧ laneBit 2 ≠ laneEnable (s.arrive 5) ∧
      laneBit 2 = laneEnable ((s.putSetting .laneEnable 4).arrive 5) ∧
      (laneEnable ((s.putSetting .laneEnable 3).arrive 5)).getLsbD 2 = false ∧
      (headerLine 0x5A0412 = 1042 ∧ 32767 < (headerLine 0x5A0412 - 1043).toNat)) ∧
    (∀ c ∈ ([0b0001, 0b1011] : List LaneSet).map (fun d => { partLine with delivered := d }),
      ∀ s : State, s = ready.setScan { ready.scan with current := some c, reference := some 1038 } →
      LaneReady (s.arrive 5) 2 ∧ (s.arrive 5).scan.current = some c ∧ c.number = headerLine 0x5A0412 ∧
      c.required.getLsbD 2 = true ∧
      (c.delivered = 0b0001 ∧ c.delivered ||| laneBit 2 ≠ c.required ∨
        c.delivered ||| laneBit 2 = c.required ∧ (c.number - 1038).toNat = 3 + 1)) ∧
    (1 ≤ (headerLine 0x5A0412 - 1041).toNat ∧ (headerLine 0x5A0412 - 1041).toNat ≤ 32767 ∧
      (0b1011 : LaneSet).getLsbD 2 = false) ∧
    (∀ s : State, s = (ready.setScan { ready.scan with
          current := some { partLine with number := 1041 }, reference := some 1040 }).putSetting .laneEnable 4 →
      LaneReady (s.arrive 5) 2 ∧ laneBit 2 = laneEnable (s.arrive 5) ∧
      (s.arrive 5).scan.current = some { partLine with number := 1041 } ∧
      (headerLine 0x5A0412 - 1041).toNat = 1 ∧ (headerLine 0x5A0412 - 1040).toNat = 1 + 1) ∧
    (LaneReady (ready.arrive 5) 2 ∧
      (ready.setScan { ready.scan with headersCorrected := 1 }).arrive 5 =
        { ready.arrive 5 with
          scan := { (ready.arrive 5).scan with
            headersCorrected := min 65535 ((ready.arrive 5).scan.headersCorrected + 1) } } ∧
      correctedBytes.length = 70 ∧
      checkHeader (segmentHeader correctedBytes) (correctedBytes.getD 3 0) = .corrected 0x5A0412 ∧
      correctedBytes.drop 4 = goodBytes.drop 4 ∧ GoodSegment 2 goodBytes 0x5A0412) := by
  refine ⟨fun s h => ?_, fun c hc s h => ?_, by decide, fun s h => ?_, ?_, ?_,
    by simp [correctedBytes, goodBytes], ?_, by simp [correctedBytes], goodBytes_good⟩
  · subst h
    unfold LaneReady
    decide +kernel
  · subst h
    simp only [List.map_cons, List.map_nil, List.mem_cons, List.not_mem_nil, or_false] at hc
    unfold LaneReady
    obtain rfl | rfl := hc <;> decide +kernel
  · subst h
    unfold LaneReady
    decide +kernel
  · unfold LaneReady; decide +kernel
  · rw [State.arrive_of_quiet _ 5 (fun _ h => by cases h) (by decide +kernel),
      State.arrive_of_quiet _ 5 (fun _ h => by cases h) (by decide +kernel)]
    rfl
  · decide +kernel

/-- That segment with a bit of its CRC inverted. -/
def badPayload : List Byte :=
  [0x5A, 0x04, 0x12, 0x16] ++ List.replicate 64 0xFF ++ field16 (crc16 (List.replicate 64 0xFF) ^^^ 1).toNat

/-- A short burst, an uncorrectable header, a wrong marker, a wrong lane, a wrong payload CRC. -/
theorem test_witness_BadBurstsDiscarded : LaneReady (ready.arrive 5) 2 ∧ LaneReady (ready.arrive 5) 1 ∧
    ([] : List Byte).length ≠ 70 ∧ checkHeader 0x5A0010 0x16 = .uncorrectable ∧
    checkHeader 0x000000 0x00 = .clean 0x000000 ∧ BitVec.extractLsb' 18 6 (0x000000 : BitVec 24) ≠ 0b010110#6 ∧
    checkHeader (segmentHeader goodBytes) (goodBytes.getD 3 0) = .clean 0x5A0412 ∧
    (BitVec.extractLsb' 16 2 (0x5A0412 : BitVec 24)).toNat ≠ (1 : Fin 4).val ∧
    badPayload.length = 70 ∧ checkHeader (segmentHeader badPayload) (badPayload.getD 3 0) = .clean 0x5A0412 ∧
    (crc16 ((badPayload.drop 4).take 64)).toNat ≠ valueOf (badPayload.drop 68) := by
  refine ⟨?_, ?_, by decide, by decide +kernel, by decide +kernel, by decide, by decide +kernel, by decide, rfl,
    by decide +kernel, ?_⟩
  · unfold LaneReady; decide +kernel
  · unfold LaneReady; decide +kernel
  · intro h
    have hv : valueOf (badPayload.drop 68) = (crc16 (List.replicate 64 0xFF) ^^^ 1).toNat :=
      valueOf_field16 _ (BitVec.isLt _)
    rw [hv] at h
    have h1 : crc16 (List.replicate 64 0xFF) = crc16 (List.replicate 64 0xFF) ^^^ 1 := BitVec.eq_of_toNat_eq h
    generalize crc16 (List.replicate 64 0xFF) = c at h1
    have h2 := congrArg (fun x : Word16 => x ^^^ c) h1
    simp at h2

theorem test_witness_HeaderCodeCorrectsOneBit : checkHeader 0x5A0412 0x16 = .clean 0x5A0412 := test_header_clean

/-- The paper line as the tracker takes it. -/
def paperLine : CompletedLine := { number := 7000, lanes := paperLanes, time := 5, missing := 0, mark := false }

/-- Unseeded and short of lock; seeded and short of lock by one line, from SEEKING and from LOST; a line without
edges. -/
theorem test_witness_SeekingLinesCountTowardLock :
    ((tracking .seeking).tracker.mode = .seeking ∧ paperLine.mark = false ∧
      (tracking .seeking).port.notices.length < 32 ∧
      validEdges (tracking .seeking).tracker.working paperLine.lanes = some (124, 1923) ∧
      (tracking .seeking).tracker.seeded = false ∧ (tracking .seeking).tracker.lockCount + 1 = 1 ∧
      1 < (tracking .seeking).setting .lockLines) ∧
    (∀ m ∈ ([.seeking, .lost] : List TrackerMode), ∀ s : State,
      s = (tracking m).setTracker { (tracking m).tracker with lockCount := 15, seeded := true } →
        (s.tracker.mode = .seeking ∨ s.tracker.mode = .lost) ∧
        validEdges s.tracker.working paperLine.lanes = some (124, 1923) ∧
        s.tracker.seeded = true ∧ s.tracker.lockCount + 1 = 16 ∧ s.setting .lockLines ≤ 16 ∧
        s.port.notices.length < 32) ∧
    validEdges (tracking .lost).tracker.working (Vector.replicate 4 0) = none ∧ 0 < ready.setting .lockLines ∧
    (tracking .stopped).tracker.mode = .stopped ∧ { paperLine with mark := true }.mark = true := by
  refine ⟨by decide +kernel, fun m hm s h => ?_, by decide +kernel⟩
  subst h
  simp only [List.mem_cons, List.not_mem_nil, or_false] at hm
  obtain rfl | rfl := hm <;> decide +kernel

theorem test_witness_LineTimeoutLosesTheRoll : ∀ s : State,
    s = (rollPlaying.setScan { rollPlaying.scan with lineTimer := some 5 }) →
      (s.arrive 5).tracker.mode = .locked ∧ (s.arrive 5).scan.lineTimer = some 5 ∧ reached (s.arrive 5).clock 5 ∧
      (s.arrive 5).port.notices.length < 32 := by
  intro s h
  subst h
  decide +kernel

theorem test_witness_RollStartCompletes :
    (RequestAtHead ((asked ready 8 []).arrive 5) 8 7 [] ∧ ((asked ready 8 []).arrive 5).tracker.mode = .stopped) ∧
    RequestAtHead ((asked (tracking .lost) 8 []).arrive 5) 8 7 [] ∧
      ((asked (tracking .lost) 8 []).arrive 5).tracker.mode ≠ .stopped :=
  ⟨⟨asked_atHead _ _ _ _ rfl (by decide), by decide +kernel⟩, asked_atHead _ _ _ _ rfl (by decide), by decide +kernel⟩

theorem test_witness_RollStopCompletes :
    (RequestAtHead ((asked rollPlaying 9 []).arrive 5) 9 7 [] ∧
      ((asked rollPlaying 9 []).arrive 5).tracker.mode = .locked) ∧
    (RequestAtHead ((asked (tracking .lost) 9 []).arrive 5) 9 7 [] ∧
      ((asked (tracking .lost) 9 []).arrive 5).tracker.mode = .lost) ∧
    RequestAtHead ((asked ready 9 []).arrive 5) 9 7 [] ∧ ((asked ready 9 []).arrive 5).tracker.mode = .stopped :=
  ⟨⟨asked_atHead _ _ _ _ rfl (by decide), by decide +kernel⟩, ⟨asked_atHead _ _ _ _ rfl (by decide), by decide +kernel⟩,
    asked_atHead _ _ _ _ rfl (by decide), by decide +kernel⟩

/-- The locked part with channel 46's record in a life. -/
def channel46 (blind : Bool) (life : ApertureLife) : State :=
  { tracking .locked with
    apertures := { ready.apertures with
      records := ready.apertures.records.set 46 { blind := blind, life := life } } }

/-- EMPTY blind, EMPTY and not, TENTATIVE with one line seen (the next confirms), OPEN, BRIDGING with two
lines absent (one more is bridged) and with three (one more closes), at the default settings and at the ends of
their ranges. -/
theorem test_witness_SampledLineTransitions :
    (∃ s', takeSampledLine 7000 5 (Vector.replicate 102 true) (channel46 true .empty) = s') ∧
    (channel46 true .empty).apertures.records[46] = { blind := true, life := .empty } ∧
    (channel46 false .empty).apertures.records[46] = { blind := false, life := .empty } ∧
    1 < ready.setting .confirmLines ∧
    ((channel46 false (.tentative 6999 0 1)).apertures.records[46]).life = .tentative 6999 0 1 ∧
    ready.setting .confirmLines ≤ 1 + 1 ∧ 1 + 1 < (ready.putSetting .confirmLines 3).setting .confirmLines ∧
    ((channel46 false (.opened 6999 0 none)).apertures.records[46]).life = .opened 6999 0 none ∧
    1 ≤ ready.setting .bridgeLines ∧ (ready.putSetting .bridgeLines 0).setting .bridgeLines = 0 ∧
    ((channel46 false (.bridging 1 0 none 2 0 3)).apertures.records[46]).life = .bridging 1 0 none 2 0 3 ∧
    ready.setting .bridgeLines < 3 + 1 ∧ 2 + 1 ≤ ready.setting .bridgeLines := by
  refine ⟨⟨_, rfl⟩, ?_⟩
  decide +kernel

/-- The LOCKED tracker after so many failures of the edges and so many end marks. -/
def following (failures marks : Nat) : State :=
  (tracking .locked).setTracker
    { (tracking .locked).tracker with
      edgeFailures := failures, endMarks := marks, geometry := geometryOf 16384 28800 922 }

/-- Three missing lines and four; the last failure of the edges and the one before; the last end mark and the one
before, on a line all light; a line with valid edges. -/
theorem test_witness_LockedLines :
    (following 0 0).tracker.mode = .locked ∧ (following 0 0).port.notices.length < 32 ∧
    { paperLine with missing := 3 }.missing ≤ 3 ∧ 3 < { paperLine with missing := 4 }.missing ∧
    (∃ u : State, u = (List.range 3).reverse.foldl
      (fun w j => takeSampledLine (paperLine.number - BitVec.ofNat 16 (j + 1)) paperLine.time
        (following 0 0).tracker.lastStates w)
      { following 0 0 with tracker := { (following 0 0).tracker with lastLine := paperLine.number } } ∧
      u.port.notices.length < 32) ∧
    validEdges (following 0 0).tracker.working (Vector.replicate 4 (BitVec.allOnes 512)) = none ∧
    ready.setting .edgeLossLines ≤ ready.setting .edgeLossLines - 1 + 1 ∧
    0 + 1 < ready.setting .edgeLossLines ∧
    validEdges (following 0 0).tracker.working paperLine.lanes = some (124, 1923) ∧
    ((List.finRange 102).filter fun c => decide (c.val ≤ 6 ∨ 95 ≤ c.val) &&
      (channelStates (geometryOf 16384 28800 922) (Vector.replicate 4 (BitVec.allOnes 512)))[c]).length = 14 ∧
    (following 0 (ready.setting .endLines - 1)).tracker.endMarks + 1 = ready.setting .endLines ∧
    (following 0 0).tracker.endMarks + 1 < ready.setting .endLines := by
  refine ⟨by decide +kernel, by decide +kernel, by decide, by decide, ⟨_, rfl, by decide +kernel⟩, ?_⟩
  decide +kernel

/-- EMPTY, OPEN and BRIDGING records of a control, a pedal and a note channel, at the ends of each range; an
owned key in each phase with a release time to come, and one that the channel does not own; the number 102. -/
theorem test_witness_ApertureCloseCompletes :
    (∀ c ∈ ([0, 5, 6, 7, 46, 94, 95, 100, 101] : List Channel),
      RequestAtHead ((asked ready 0x0D [byteOf c.val]).arrive 5) 0x0D 7 [byteOf c.val] ∧
      lifeNumber (((asked ready 0x0D [byteOf c.val]).arrive 5).apertures.records[c]).life ≤ 1) ∧
    (∀ life ∈ ([.opened 1 0 (some (.key 39)), .bridging 1 0 (some (.key 39)) 2 4 1] : List ApertureLife),
      (((asked (channel46 false life) 0x0D [46]).arrive 5).apertures.records[46]).life = life) ∧
    (ControlChannel 0 .bass 0 ∧ ControlChannel 5 .bass 5 ∧ ControlChannel 95 .treble 0 ∧ ControlChannel 100 .treble 5) ∧
    (∀ p ∈ ([.pending rollNote workedValues, .strike rollNote workedValues launched true 50600 none,
        .strike cueNote workedValues launched true 50600 (some rollNote), .hold rollNote workedValues launched 180 0,
        .waiting rollNote 90000] : List KeyPhase),
      ∀ a : State, a = (asked (withKey opened46 39 p) 0x0D [46]).arrive 5 →
        a.owner 39 = some (rollOwner 46) ∧ a.queue.status ≠ .waiting ∧ (a.key 39).phase = p) ∧
    ((asked opened46 0x0D [46]).arrive 5).owner 39 ≠ some (rollOwner 46) ∧
    RequestAtHead ((asked ready 0x0D [102]).arrive 5) 0x0D 7 [byteOf 102] := by
  refine ⟨fun c hc => ⟨asked_atHead _ _ _ _ rfl (by decide), ?_⟩, by decide +kernel, by unfold ControlChannel; decide,
    fun p hp a h => ?_, by decide +kernel, asked_atHead _ _ _ _ rfl (by decide)⟩
  · revert c
    decide +kernel
  · subst h
    simp only [List.mem_cons, List.not_mem_nil, or_false] at hp
    obtain rfl | rfl | rfl | rfl | rfl := hp <;> decide +kernel

/-- A line on which channel 46 alone is open. -/
def only46 : Vector Bool 102 := (Vector.replicate 102 false).set 46 true

/-- Channel 46 alone confirms, or alone closes; its key idle, its context enabled, disabled and narrowed past the
key, its planned launch to come; a latch in its window, one past it, and none. -/
theorem test_witness_LineEvents :
    (∀ life ∈ ([.tentative 6999 4 1, .bridging 1 4 (some (.key 39)) 2 8 3] : List ApertureLife), ∀ d : Channel, d ≠ 46 →
      (lineTransition (ready.setting .confirmLines) (ready.setting .bridgeLines) (confirmMapping ready d)
        7000 5 false ((channel46 false life).apertures.records[d])).2 = none) ∧
    (∀ d : Channel, d ≠ 46 → only46[d] = false) ∧ only46[46] = true ∧
    ready.setting .confirmLines ≤ 1 + 1 ∧ ready.setting .bridgeLines < 3 + 1 ∧
    (39 : Key) = transposedKey ready.contexts.roll (46 - 6) ∧ ready.contexts.roll.enabled = true ∧
    ready.contexts.roll.keyLow ≤ keyNumber 39 ∧ keyNumber 39 ≤ ready.contexts.roll.keyHigh ∧ (39 < 40 ∧ 40 < 41) ∧
    (ready.key 39).phase = .idle ∧ ready.queue.entries = [] ∧ ready.queue.status = .idle ∧
    ¬ reached ready.clock (strikeValuesOf 20 450 (ready.voice 39) 0 600
      (timePlus 4 (100 * (ready.setting .perfLatency : Int)))).planned ∧
    RollLevel ready .bass 7000 false (min 1023 (512 + 0) * 256 / 256) (some { start := 7000, level := 512 }) ∧
    ((7004 : LineNo) - 7000).toNat ≤ ready.setting .chordWindow ∧
    ready.setting .chordWindow < ((7005 : LineNo) - 7000).toNat := by
  refine ⟨by decide +kernel, by decide +kernel, by decide +kernel, by decide +kernel, by decide +kernel,
    by decide +kernel, rfl, by decide +kernel, by decide +kernel, by decide, by decide +kernel, rfl, rfl,
    by decide +kernel, ?_, by decide +kernel, by decide +kernel⟩
  refine ⟨512, fun h => absurd h (by decide +kernel), fun _ => ⟨fun l h => ?_, fun _ => ?_⟩, by decide +kernel⟩
  · have hl : (ready.half .bass).latch = none := by decide
    rw [hl] at h
    cases h
  · decide +kernel

/-- A pedal whose queue has room and one whose queue is full, the new event behind an earlier one. -/
theorem test_witness_PedalEventTaken :
    PedalRecord.atReset.owner = .roll ∧ PedalRecord.atReset.mode ≠ .fault ∧ ([⟨7, 0⟩] : List PedalEvent).length < 8 ∧
    ([⟨7, 0⟩] : List PedalEvent) = [⟨7, 0⟩] ++ [] ∧ clockDiff 7 9 ≤ 0 ∧ ¬ reached 5 7 ∧
    (List.replicate 8 (⟨7, 0⟩ : PedalEvent)).take 7 = List.replicate 7 ⟨7, 0⟩ ++ [] := by decide

/-- A step that is due; halves below, at and above their bases; and the crescendo states. -/
theorem test_witness_ExpressionStepCompletes :
    (ready.arrive 1000).expression.nextStep = some 1000 ∧ reached (ready.arrive 1000).clock 1000 ∧
    (HalfContext.atReset 512).crescendo = .none ∧
    16 * (HalfContext.atReset 512).base ≤ (HalfContext.atReset 512).effective ∧
    ({ HalfContext.atReset 512 with effective := 0 }).effective < 16 * (HalfContext.atReset 512).base ∧
    rising.crescendo = .fast ∧ rising.effective ≤ 16368 := by decide +kernel

/-- Each mode at the end of its range, and one half, one mode and one value past theirs. -/
theorem test_witness_ExprSetCompletes :
    (∀ arguments ∈ ([[0, 1, 0x03, 0xFF], [1, 2, 0xFC, 0x01], [0, 0, 0, 0], [2, 0, 0, 0], [0, 3, 0, 0],
        [0, 1, 0x04, 0], [1, 2, 0xFC, 0x00]] : List (List Byte)),
      RequestAtHead ((asked ready 0x10 arguments).arrive 5) 0x10 7 arguments) ∧
    ([0, 1] ++ field16 (1023 : BitVec 16).toNat : List Byte) = [0, 1, 0x03, 0xFF] ∧
    ([1, 2] ++ field16 (BitVec.ofInt 16 (-1023)).toNat : List Byte) = [1, 2, 0xFC, 0x01] ∧
    (BitVec.ofInt 16 (-1023)).toInt = -1023 ∧ (BitVec.ofInt 16 (-1024)).toInt < -1023 ∧
    halfOfNumber 0 = some .bass ∧ halfOfNumber 1 = some .treble :=
  ⟨fun _ _ => asked_atHead _ _ _ _ rfl (by decide), by decide⟩

/-! ### Strikes, launches and heat -/

/-- The ends of the ranges of level and shift. -/
theorem test_witness_StrikeValuesInRange : VoicingRecord.factory.valid = true ∧
    (∃ v, strikeValuesOf 20 450 VoicingRecord.factory 1023 1023 0 = v) ∧
    ∃ v, strikeValuesOf 20 20 VoicingRecord.factory 0 0 0 = v := ⟨by decide +kernel, ⟨_, rfl⟩, _, rfl⟩

theorem test_witness_StrikeQueueStaysOrdered :
    ([{ key := 3, planned := 10 }, { key := 4, planned := 10 }] : List QueueEntry).Pairwise
      (fun x y => standsAfter 0 x y = false) ∧
    ({ key := 5, planned := 10 } : QueueEntry) ∉
      ([{ key := 3, planned := 10 }, { key := 4, planned := 10 }] : List QueueEntry) := by decide

/-- The head at the very moment of its planned launch. -/
theorem test_witness_HeadLaunchedNormal : ∀ a : State, a = (queued 39 cueNote).arrive 84500 →
    a.queue.entries = [{ key := 39, planned := 84500 }] ∧ a.queue.status = .timed ∧
    (a.key 39).phase = .pending cueNote workedValues ∧ reached a.clock 84500 ∧ a.heatOf 39 < a.heat.max ∧
    (a.key 39).flags.mute = false ∧ a.quiet = false ∧
    claimSum a + workedValues.duty ≤ a.setting .poolCapacity := by
  intro a h
  subst h
  decide +kernel

/-- A key exactly at HEAT_MAX, a key under QUIET, a pool one unit short of the duty. -/
theorem test_witness_HeadLaunchedSilentOrWaits :
    (∀ s : State, s = (queued 39 cueNote).setHeat 39 60000 →
      (s.arrive 84500).queue.entries = [{ key := 39, planned := 84500 }] ∧ (s.arrive 84500).queue.status = .timed ∧
      ((s.arrive 84500).key 39).phase = .pending cueNote workedValues ∧ reached (s.arrive 84500).clock 84500 ∧
      (s.arrive 84500).heat.max ≤ (s.arrive 84500).heatOf 39) ∧
    (∀ s : State, s = { queued 39 cueNote with quiet := true } →
      ((s.arrive 84500).key 39).phase = .pending cueNote workedValues ∧
      (s.arrive 84500).heatOf 39 < (s.arrive 84500).heat.max ∧ (s.arrive 84500).quiet = true) ∧
    ∀ s : State, s = ((queued 39 cueNote).putSetting .poolCapacity 2000).setPedal .sustain
        { PedalRecord.atReset with drive := 1363 } →
      ((s.arrive 84500).key 39).phase = .pending cueNote workedValues ∧
      (s.arrive 84500).heatOf 39 < (s.arrive 84500).heat.max ∧ ((s.arrive 84500).key 39).flags.mute = false ∧
      (s.arrive 84500).quiet = false ∧
      (s.arrive 84500).setting .poolCapacity < claimSum (s.arrive 84500) + workedValues.duty ∧
      claimSum (s.arrive 84500) ≤ (s.arrive 84500).setting .poolCapacity := by
  refine ⟨fun s h => ?_, fun s h => ?_, fun s h => ?_⟩ <;> subst h <;> decide +kernel

/-- A miss that retires (two before it), one that does not, and each way a strike ends. -/
theorem test_witness_StrikeEndTimerEndsStrike :
    (∀ a : State, a = ((striking 39 cueNote).setKey 39
        { (striking 39 cueNote).key 39 with missCount := 2 }).arrive 50600 →
      (a.key 39).phase = .strike cueNote workedValues launched true 50600 none ∧ reached a.clock 50600 ∧
      2 ≤ (a.key 39).missCount ∧ a.port.notices.length < 32) ∧
    (∀ a : State, a = (striking 39 cueNote).arrive 50600 →
      (a.key 39).missCount < 2 ∧ cueNote.release = none ∧ a.heatOf 39 < a.heat.max) ∧
    (∀ a : State, a = ((striking 39 cueNote).setHeat 39 60000).arrive 50600 →
      (a.key 39).phase = .strike cueNote workedValues launched true 50600 none ∧ a.heat.max ≤ a.heatOf 39) ∧
    (∀ a : State, a = (withKey ready 39 (.strike cueNote workedValues launched false 50600 (some rollNote))).arrive
        50600 → (a.key 39).phase = .strike cueNote workedValues launched false 50600 (some rollNote)) ∧
    ∀ a : State, a = (striking 39 { cueNote with release := some 50600 }).arrive 50600 →
      (a.key 39).phase = .strike { cueNote with release := some 50600 } workedValues launched true 50600 none ∧
      reached a.clock 50600 := by
  refine ⟨fun s h => ?_, fun s h => ?_, fun s h => ?_, fun s h => ?_, fun s h => ?_⟩ <;> subst h <;>
    decide +kernel

/-- A gap end and a release time at the very moment, in DAMP, REPEAT and HOLD. -/
theorem test_witness_GapEndAndReleaseTime :
    (∀ a : State, a = (withKey ready 39 (.damp 30000)).arrive 30000 →
      reached a.clock 30000 ∧ (a.key 39).phase = .damp 30000) ∧
    (∀ a : State, a = (withKey ready 39 (.waiting cueNote 30000)).arrive 30000 →
      reached a.clock 30000 ∧ (a.key 39).phase = .waiting cueNote 30000 ∧
      ¬ reached a.clock (strikeValuesOf (a.setting .velMin) (a.setting .velMax) (a.voice 39)
        a.pedals.shift.position (min 1023 (600 * a.contexts.cue.levelScale / 256)) cueNote.sound).planned ∧
      a.queue.entries = [] ∧ a.queue.status = .idle) ∧
    ∀ a : State, a = (holding 39 { cueNote with release := some 5 }).arrive 5 →
      (a.key 39).phase = .hold { cueNote with release := some 5 } workedValues launched 180 0 ∧ reached a.clock 5 ∧
      a.queue.status ≠ .waiting := by
  refine ⟨fun s h => ?_, fun s h => ?_, fun s h => ?_⟩ <;> subst h <;> decide +kernel

/-- A step that is due with a hold that it cuts (a figure that comes to HEAT_MAX) and one that it keeps. -/
theorem test_witness_HeatStepCompletes :
    (∀ a : State, a = ((holding 39 cueNote).setHeat 39 60100).arrive 1000 →
      a.heat.nextStep = some 1000 ∧ reached a.clock 1000 ∧
      (a.key 39).phase = .hold cueNote workedValues launched 180 0 ∧
      a.setting .heatMax ≤ min 262143 (a.heatOf 39 + driveLevel a 39 - a.heatOf 39 / 256)) ∧
    ∀ a : State, a = (holding 39 cueNote).arrive 1000 →
      min 262143 (a.heatOf 39 + driveLevel a 39 - a.heatOf 39 / 256) < a.setting .heatMax := by
  refine ⟨fun s h => ?_, fun s h => ?_⟩ <;> subst h <;> decide +kernel

/-! ### Keys -/

/-- Two claimants of one priority. -/
def equalPriorities (s : State) : State :=
  { s with contexts := { s.contexts with cue := { s.contexts.cue with priority := 1 } } }

/-- The cue source below the roll. -/
def cueBelowRoll (s : State) : State :=
  { s with contexts := { s.contexts with cue := { s.contexts.cue with priority := 0 } } }

/-- The arguments of PLAY_OPEN of a key, cue id 9, to sound at 120000. -/
def openArguments (key : Nat) (level : Nat) : List Byte := [byteOf key, 9] ++ field16 level ++ fieldTime 120000

/-- A block with its fields at their ends. -/
def block (enabled : Bool) (low high : Nat) : ContextBlock :=
  { enabled := enabled, priority := 3, transpose := -24, keyLow := low, keyHigh := high, levelScale := 256 }

/-- A claim on the idle keys at both ends of the range, with level 1023 and with FOLLOW; a claim below its owner;
claims of an owner's equal on each phase, and a claim on a DAMP key; each refusal at the ends of its range. -/
theorem test_witness_PlayOpenCompletes :
    (∀ k ∈ ([0, 87] : List Key), ∀ w ∈ ([1023, 65535] : List Nat),
      RequestAtHead ((asked ready 0x14 (openArguments (keyNumber k) w)).arrive 5) 0x14 7
        (openArguments (keyNumber k) w) ∧
      ∀ a : State, a = (asked ready 0x14 (openArguments (keyNumber k) w)).arrive 5 →
        a.contexts.cue.enabled = true ∧ k = transposedKey a.contexts.cue (keyNumber k) ∧
        a.contexts.cue.keyLow ≤ keyNumber k ∧ keyNumber k ≤ a.contexts.cue.keyHigh ∧ (a.key k).phase = .idle ∧
        ¬ reached a.clock (strikeValuesOf (a.setting .velMin) (a.setting .velMax) (a.voice k)
          a.pedals.shift.position (min 1023 ((if w = 65535 then a.output (keyHalf a k) else w)
            * a.contexts.cue.levelScale / 256)) 120000).planned ∧
        a.queue.entries = [] ∧ a.queue.status = .idle) ∧
    (∀ a : State, a = (asked (cueBelowRoll (queued 39 rollNote)) 0x14 (openArguments 40 700)).arrive 5 →
      (39 : Key) = transposedKey a.contexts.cue (keyNumber 39) ∧ a.owner 39 = some { source := .roll, id := 46 } ∧
      a.queue.status ≠ .waiting ∧ a.contexts.cue.priority < (a.context .roll).priority) ∧
    (∀ a : State, a = (asked (equalPriorities (queued 39 rollNote)) 0x14 (openArguments 40 700)).arrive 5 →
      (a.context .roll).priority ≤ a.contexts.cue.priority ∧ (a.key 39).phase = .pending rollNote workedValues ∧
      a.queue.entries = [{ key := 39, planned := 84500 }] ∧
      ¬ reached a.clock (strikeValuesOf (a.setting .velMin) (a.setting .velMax) (a.voice 39)
        a.pedals.shift.position (min 1023 (700 * a.contexts.cue.levelScale / 256)) 120000).planned) ∧
    (∀ p ∈ ([.hold rollNote workedValues launched 180 0, .strike rollNote workedValues launched true 50600 none,
        .strike rollNote workedValues launched true 50600 (some rollNote), .waiting rollNote 90000] : List KeyPhase),
      ∀ a : State, a = (asked (equalPriorities (withKey ready 39 p)) 0x14 (openArguments 40 700)).arrive 5 →
        (a.key 39).phase = p ∧ a.owner 39 = some { source := .roll, id := 46 } ∧
        (a.context .roll).priority ≤ a.contexts.cue.priority ∧ a.queue.entries = [] ∧ a.queue.status ≠ .waiting) ∧
    (∀ p ∈ ([.damp 90000, .retired .host] : List KeyPhase), ∀ a : State,
      a = (asked (withKey ready 39 p) 0x14 (openArguments 40 700)).arrive 5 →
        (a.key 39).phase = p ∧ a.queue.entries = [] ∧ a.queue.status ≠ .waiting ∧ a.contexts.cue.enabled = true) ∧
    (∀ n ∈ ([0, 1, 88, 89, 255] : List Nat), ∀ w ∈ ([0, 1023, 1024, 65534, 65535] : List Nat),
      RequestAtHead ((asked ready 0x14 (openArguments n w)).arrive 5) 0x14 7 (openArguments n w)) ∧
    ({ ready with contexts := { ready.contexts with cue := block false 1 88 } } : State).contexts.cue.enabled = false ∧
    keyNumber (transposedKey (block true 17 63) 40) < 17 ∧ 63 < keyNumber (transposedKey (block true 17 63) 88) := by
  refine ⟨fun k hk w hw => ⟨asked_atHead _ _ _ _ rfl (by decide), fun a h => ?_⟩, fun a h => ?_, fun a h => ?_,
    fun p hp a h => ?_, fun p hp a h => ?_, fun _ _ _ _ => asked_atHead _ _ _ _ rfl (by decide), rfl,
    by decide +kernel⟩ <;> (try subst h)
  · simp only [List.mem_cons, List.not_mem_nil, or_false] at hk hw
    obtain rfl | rfl := hk <;> obtain rfl | rfl := hw <;> decide +kernel
  · decide +kernel
  · decide +kernel
  · simp only [List.mem_cons, List.not_mem_nil, or_false] at hp
    obtain rfl | rfl | rfl | rfl := hp <;> decide +kernel
  · simp only [List.mem_cons, List.not_mem_nil, or_false] at hp
    obtain rfl | rfl := hp <;> decide +kernel

/-- Each phase of an owned key, a release time in the future and one that has just come, and a foreign key; the
key 0, the keys 89 and 255, the modes 0, 1, 2 and 255. -/
theorem test_witness_PlayCloseOfKey :
    (∀ n ∈ ([0, 40, 88, 89, 255] : List Nat), ∀ mode ∈ ([0, 1, 2, 255] : List Byte), ∀ t : Time,
      RequestAtHead ((asked ready 0x15 ([9, byteOf n, mode] ++ fieldTime t)).arrive 5) 0x15 7
        ([9, byteOf n, mode] ++ fieldTime t)) ∧
    (∀ p ∈ ([.pending cueNote workedValues, .strike cueNote workedValues launched true 50600 none,
        .strike rollNote workedValues launched true 50600 (some cueNote), .hold cueNote workedValues launched 180 0,
        .waiting cueNote 90000] : List KeyPhase),
      ∀ a : State, a = (asked (withKey ready 39 p) 0x15 ([9, 40, 1] ++ fieldTime 0)).arrive 5 →
        (39 : Key) = transposedKey a.contexts.cue (keyNumber 39) ∧ a.queue.status ≠ .waiting ∧
        a.owner 39 = some { source := .cue, id := 9 } ∧ (a.key 39).phase = p ∧
        reached a.clock 5 ∧ ¬ reached a.clock 6 ∧ reached a.clock a.clock) ∧
    ∀ a : State, a = (asked ready 0x15 ([9, 40, 1] ++ fieldTime 0)).arrive 5 →
      a.owner 39 ≠ some { source := .cue, id := 9 } := by
  refine ⟨fun _ _ _ _ t => asked_atHead _ _ _ _ rfl (by decide), fun p hp a h => ?_, fun a h => ?_⟩ <;> subst h
  · simp only [List.mem_cons, List.not_mem_nil, or_false] at hp
    obtain rfl | rfl | rfl | rfl | rfl := hp <;> decide +kernel
  · decide +kernel

/-- Each phase of an owned key, and a foreign key. -/
theorem test_witness_PlayCancelCompletes :
    RequestAtHead ((asked ready 0x16 [9, 40]).arrive 5) 0x16 7 [9, byteOf (keyNumber 39)] ∧
    (∀ p ∈ ([.pending cueNote workedValues, .strike cueNote workedValues launched true 50600 none,
        .strike rollNote workedValues launched true 50600 (some cueNote), .hold cueNote workedValues launched 180 0,
        .waiting cueNote 90000] : List KeyPhase),
      ∀ a : State, a = (asked (withKey ready 39 p) 0x16 [9, 40]).arrive 5 →
        (39 : Key) = transposedKey a.contexts.cue (keyNumber 39) ∧
        a.owner 39 = some { source := .cue, id := 9 } ∧ (a.key 39).phase = p) ∧
    ∀ a : State, a = (asked (withKey ready 39 (.damp 90000)) 0x16 [9, 40]).arrive 5 →
      a.owner 39 ≠ some { source := .cue, id := 9 } := by
  refine ⟨asked_atHead _ _ _ _ rfl (by decide), fun p hp a h => ?_, fun a h => ?_⟩ <;> subst h
  · simp only [List.mem_cons, List.not_mem_nil, or_false] at hp
    obtain rfl | rfl | rfl | rfl | rfl := hp <;> decide +kernel
  · decide +kernel

/-- Keys in every phase, and the arguments 1, 0 and 2. -/
theorem test_witness_AllOffAndQuietSet :
    (∀ s : State, s.loader.ready = true → s.port.responses.length < 16 →
      RequestAtHead ((asked s 0x17 []).arrive 5) 0x17 7 [] ∧ RequestAtHead ((asked s 0x18 [1]).arrive 5) 0x18 7 [1] ∧
      RequestAtHead ((asked s 0x18 [0]).arrive 5) 0x18 7 [0] ∧ RequestAtHead ((asked s 0x18 [2]).arrive 5) 0x18 7 [2]) ∧
    ∀ p ∈ ([.idle, .pending cueNote workedValues, .strike cueNote workedValues launched true 50600 none,
        .hold cueNote workedValues launched 180 0, .damp 90000, .waiting cueNote 90000, .retired .fault] :
        List KeyPhase), (((asked (withKey ready 39 p) 0x17 []).arrive 5).key 39).phase = p := by
  refine ⟨fun s h1 h2 => ⟨asked_atHead _ _ _ _ h1 h2, asked_atHead _ _ _ _ h1 h2, asked_atHead _ _ _ _ h1 h2,
    asked_atHead _ _ _ _ h1 h2⟩, fun p hp => ?_⟩
  simp only [List.mem_cons, List.not_mem_nil, or_false] at hp
  obtain rfl | rfl | rfl | rfl | rfl | rfl | rfl := hp <;> decide +kernel

/-- Key 40 in HOLD with a note launched COOL. -/
def coolHold : State := withKey ready 39 (.hold cueNote workedValues { launched with mode := .cool } 180 0)

/-- MUTE newly set on a key in HOLD makes its note MUTED, however it was launched (R99). -/
theorem test_mute_cool_hold : (nextOf (exec (.keyAmend 5) (asked coolHold 0x19 [40, 1, 0, 0xFF, 0xFF]))).map
    (fun s => (s.key 39).phase) = some (.hold cueNote workedValues { launched with mode := .muted } 180 0) := by
  decide +kernel

/-- The masks 7 and 0 without a level; the level 1023 for a key not PENDING and for the only PENDING one; MUTE newly
set on a strike whose flight has just passed, with and without a successor, a release time and a hot key, and on
one a microsecond short of it; MUTE newly set on a HOLD launched COOL; a HOLD at its timeout and a microsecond before; each refusal. -/
theorem test_witness_KeyAmendCompletes :
    (∀ setMask ∈ ([0, 7, 8] : List Byte), ∀ clearMask ∈ ([0, 7, 8] : List Byte), ∀ n ∈ ([0, 1, 40, 88, 89] : List Nat),
      ∀ w ∈ ([0, 1023, 1024, 65535] : List Nat),
      RequestAtHead ((asked ready 0x19 ([byteOf n, setMask, clearMask] ++ field16 w)).arrive 5) 0x19 7
        ([byteOf n, setMask, clearMask] ++ field16 w)) ∧
    (∀ a : State, a = (asked ready 0x19 [40, 7, 0, 0xFF, 0xFF]).arrive 5 →
      isHold (a.key 39).phase = false ∧ phaseNumber (a.key 39).phase ≠ 2 ∧ a.queue.status ≠ .waiting ∧
      isPending (a.key 39).phase = false) ∧
    (∀ a : State, a = (asked (queued 39 cueNote) 0x19 ([40, 0, 7] ++ field16 1023)).arrive 5 →
      (a.key 39).phase = .pending cueNote workedValues ∧ a.queue.entries = [{ key := 39, planned := 84500 }] ∧
      ¬ reached a.clock (strikeValuesOf (a.setting .velMin) (a.setting .velMax) (a.voice 39)
        a.pedals.shift.position 1023 cueNote.sound).planned) ∧
    (∀ p ∈ ([.strike cueNote workedValues launched true 50600 none,
        .strike { cueNote with release := some 35600 } workedValues launched true 50600 none,
        .strike cueNote workedValues launched true 50600 (some cueNote)] : List KeyPhase),
      ∀ a : State, a = (withKey ready 39 p).arrive 35600 →
        (a.key 39).phase = p ∧ (a.key 39).flags.mute = false ∧ launched.mode = .normal ∧ a.heatOf 39 < a.heat.max ∧
        reached a.clock (timePlus launched.actual (100 * (workedValues.flight : Int))) ∧ reached a.clock 35600 ∧
        ¬ reached 35599 (timePlus launched.actual (100 * (workedValues.flight : Int))) ∧
        a.queue.status ≠ .waiting ∧ a.port.notices.length < 32 ∧ a.setting .holdTimeout ≤ 255) ∧
    (∀ a : State, a = ((striking 39 cueNote).setHeat 39 60000).arrive 35600 → a.heat.max ≤ a.heatOf 39) ∧
    (∀ a : State, a = coolHold.arrive 5 → (a.key 39).phase = .hold cueNote workedValues { launched with mode := .cool } 180 0 ∧
      (a.key 39).flags.mute = false) ∧
    (∀ a : State, a = ((holding 39 cueNote).setKey 39
        { (holding 39 cueNote).key 39 with flags := { mute := true, learnExclude := false, holdExempt := true } }).arrive
        30000000 →
      (a.key 39).phase = .hold cueNote workedValues launched 180 0 ∧ a.setting .holdTimeout ≠ 0 ∧
      reached a.clock (timePlus 0 (1000000 * (a.setting .holdTimeout : Int))) ∧
      ¬ reached 29999999 (timePlus 0 (1000000 * (a.setting .holdTimeout : Int)))) := by
  refine ⟨fun _ _ _ _ _ _ _ _ => asked_atHead _ _ _ _ rfl (by decide), fun a h => ?_, fun a h => ?_,
    fun p hp a h => ?_, fun a h => ?_, fun a h => ?_, fun a h => ?_⟩ <;> subst h
  · decide +kernel
  · decide +kernel
  · simp only [List.mem_cons, List.not_mem_nil, or_false] at hp
    obtain rfl | rfl | rfl := hp <;> decide +kernel
  · decide +kernel
  · decide +kernel
  · decide +kernel

/-- The keys 1 and 88, a RETIRED key, and the numbers 0, 89 and 255. -/
theorem test_witness_KeyRetireCompletes :
    (∀ k ∈ ([0, 87] : List Key), ∀ s : State, s = striking k cueNote →
      RequestAtHead ((asked s 0x1C [byteOf (keyNumber k)]).arrive 5) 0x1C 7 [byteOf (keyNumber k)] ∧
      isRetired (((asked s 0x1C [byteOf (keyNumber k)]).arrive 5).key k).phase = false ∧
      ((asked s 0x1C [byteOf (keyNumber k)]).arrive 5).port.notices.length < 32) ∧
    isRetired (((asked (withKey ready 39 (.retired .host)) 0x1C [40]).arrive 5).key 39).phase = true ∧
    ∀ n ∈ ([0, 89, 255] : List Nat), RequestAtHead ((asked ready 0x1C [byteOf n]).arrive 5) 0x1C 7 [byteOf n] := by
  refine ⟨fun k hk s h => ⟨asked_atHead _ _ _ _ (by rw [h]; rfl) (by rw [h]; exact Nat.zero_lt_succ 15), ?_⟩, by decide +kernel,
    fun n _ => asked_atHead _ _ _ _ rfl (by decide)⟩
  subst h
  simp only [List.mem_cons, List.not_mem_nil, or_false] at hk
  obtain rfl | rfl := hk <;> decide +kernel

theorem test_witness_KeyRestoreCompletes :
    (∀ k ∈ ([0, 87] : List Key), ∀ s : State, s = withKey ready k (.retired .fault) →
      RequestAtHead ((asked s 0x1D [byteOf (keyNumber k)]).arrive 5) 0x1D 7 [byteOf (keyNumber k)] ∧
      (((asked s 0x1D [byteOf (keyNumber k)]).arrive 5).key k).phase = .retired .fault ∧
      (((asked s 0x1D [byteOf (keyNumber k)]).arrive 5).context .roll).enabled = true) ∧
    isRetired (((asked ready 0x1D [40]).arrive 5).key 39).phase = false ∧
    ∀ n ∈ ([0, 89, 255] : List Nat), RequestAtHead ((asked ready 0x1D [byteOf n]).arrive 5) 0x1D 7 [byteOf n] := by
  refine ⟨fun k hk s h => ⟨asked_atHead _ _ _ _ (by rw [h]; rfl) (by rw [h]; exact Nat.zero_lt_succ 15), ?_⟩, by decide +kernel,
    fun n _ => asked_atHead _ _ _ _ rfl (by decide)⟩
  subst h
  simp only [List.mem_cons, List.not_mem_nil, or_false] at hk
  obtain rfl | rfl := hk <;> decide +kernel

/-! ### Pedals and the hammer line -/

/-- The sustain pedal as given. -/
def sustained (p : PedalRecord) : State := ready.setPedal .sustain p

/-- A pedal that moves since a time, far from its target. -/
def moving (start : Time) : PedalRecord := { PedalRecord.atReset with mode := .moving start, target := 900 }

/-- A due step; in FAULT; at the deadband with target 0 and more; out of it, idle, moving with the move start
exactly PEDAL_SETTLE back, and one more. -/
theorem test_witness_PedalStepCompletes :
    (∀ a : State, a = (sustained { PedalRecord.atReset with mode := .fault }).arrive 1000 →
      a.pedals.nextStep = some 1000 ∧ reached a.clock 1000 ∧ (a.pedal .sustain).mode = .fault) ∧
    (∀ a : State, a = (sustained { PedalRecord.atReset with position := ready.setting .pedalDeadband }).arrive 1000 →
      (a.pedal .sustain).mode ≠ .fault ∧ (a.pedal .sustain).target = 0 ∧
      (((a.pedal .sustain).target : Int) - (a.pedal .sustain).position).natAbs ≤ a.setting .pedalDeadband) ∧
    (∀ a : State, a = (sustained { PedalRecord.atReset with target := ready.setting .pedalDeadband + 1 }).arrive 1000 →
      (a.pedal .sustain).mode = .idle ∧ 0 < (a.pedal .sustain).target ∧
      a.setting .pedalDeadband < (((a.pedal .sustain).target : Int) - (a.pedal .sustain).position).natAbs) ∧
    (∀ a : State, a = (sustained (moving (timePlus 1000 (-(1000 * (ready.setting .pedalSettle : Int)))))).arrive 1000 →
      clockDiff a.clock (timePlus 1000 (-(1000 * (ready.setting .pedalSettle : Int))))
        ≤ 1000 * (a.setting .pedalSettle : Int)) ∧
    ∀ a : State, a = (sustained (moving (timePlus 999 (-(1000 * (ready.setting .pedalSettle : Int)))))).arrive 1000 →
      1000 * (a.setting .pedalSettle : Int)
        < clockDiff a.clock (timePlus 999 (-(1000 * (ready.setting .pedalSettle : Int)))) ∧
      a.port.notices.length < 31 := by
  refine ⟨fun a h => ?_, fun a h => ?_, fun a h => ?_, fun a h => ?_, fun a h => ?_⟩ <;> subst h <;> decide +kernel

theorem test_witness_PedalFaultCompletes : ∀ a start,
    start = timePlus 999 (-(1000 * (ready.setting .pedalSettle : Int))) → a = (sustained (moving start)).arrive 1000 →
    a.pedals.nextStep = some 1000 ∧ reached a.clock 1000 ∧ (a.pedal .sustain).mode = .moving start ∧
    a.setting .pedalDeadband < (((a.pedal .sustain).target : Int) - (a.pedal .sustain).position).natAbs ∧
    1000 * (a.setting .pedalSettle : Int) < clockDiff a.clock start ∧ a.port.notices.length < 32 := by
  intro a start h1 h2
  subst h1
  subst h2
  decide +kernel

/-- Two entries due, the second at the very moment, and one to come. -/
theorem test_witness_PedalEventsApplied : ∀ a : State,
    a = (sustained { PedalRecord.atReset with events := [⟨4, 0⟩, ⟨5, 900⟩, ⟨6, 0⟩] }).arrive 5 →
    (a.pedal .sustain).events = [⟨4, 0⟩] ++ [⟨5, 900⟩] ++ [⟨6, 0⟩] ∧ reached a.clock 4 ∧ reached a.clock 5 ∧
    ¬ reached a.clock 6 := by
  intro a h
  subst h
  decide +kernel

/-- Each state and owner, equal priorities, a lower one; the position 1023 and 1024, the pedals 1 and 2. -/
theorem test_witness_PedalRequestsComplete :
    (∀ pedal ∈ ([0, 1, 2] : List Byte), ∀ position ∈ ([0, 1023, 1024, 65535] : List Nat),
      RequestAtHead ((asked ready 0x20 (pedal :: field16 position)).arrive 5) 0x20 7 (pedal :: field16 position)) ∧
    (∀ a : State, a = (asked (equalPriorities ready) 0x20 []).arrive 5 →
      (a.pedal .sustain).mode ≠ .fault ∧ (a.pedal .sustain).owner = .roll ∧
      a.contexts.roll.priority ≤ a.contexts.cue.priority) ∧
    (∀ a : State, a = (asked (cueBelowRoll ready) 0x20 []).arrive 5 →
      (a.pedal .sustain).mode ≠ .fault ∧ (a.pedal .sustain).owner = .roll ∧
      a.contexts.cue.priority < a.contexts.roll.priority) ∧
    (RequestAtHead ((asked ready 0x21 [0]).arrive 5) 0x21 7 [byteOf (pedalNumber .sustain)] ∧
      RequestAtHead ((asked ready 0x23 [1]).arrive 5) 0x23 7 [byteOf (pedalNumber .shift)]) ∧
    (∀ a : State, a = (sustained { PedalRecord.atReset with owner := .cue }).arrive 5 →
      (a.pedal .sustain).mode ≠ .fault ∧ (a.pedal .sustain).owner = .cue) ∧
    ∀ a : State, a = (sustained { PedalRecord.atReset with mode := .fault }).arrive 5 →
      (a.pedal .sustain).mode = .fault := by
  refine ⟨fun _ _ _ _ => asked_atHead _ _ _ _ rfl (by decide), fun a h => ?_, fun a h => ?_,
    ⟨asked_atHead _ _ _ _ rfl (by decide), asked_atHead _ _ _ _ rfl (by decide)⟩, fun a h => ?_, fun a h => ?_⟩ <;>
    subst h <;> decide +kernel

/-- A hub whose burst holds some bytes. -/
def heard (s : State) (burst : List Byte) : State := s.setHub { s.hub with burst := burst }

/-- Two bytes gathered and four; reports of position 1023 and 1024, of a good check byte and a bad one. -/
theorem test_witness_HubBytesAndPedalReports :
    (∀ a : State, a = (heard ready [0x28, 0x07]).arrive 5 →
      a.loader.ready = true ∧ a.hub.ignoring = false ∧ a.hub.burst.length < 3) ∧
    (∀ a : State, a = (heard ready [0x28, 0x07, 0xF8, 0xD7]).arrive 5 → 4 ≤ a.hub.burst.length) ∧
    (∀ a : State, a = (heard ready [0xF1, 0x03, 0xFF]).arrive 5 →
      a.loader.ready = true ∧ a.hub.ignoring = false ∧ a.hub.burst = [0xF1, 0x03, 0xFF]) ∧
    ((0x0D : Byte) = 0xF1 ^^^ 0x03 ^^^ 0xFF ∧ (0x03 : Byte).toNat * 256 + (0xFF : Byte).toNat ≤ 1023) ∧
    ((0x0C : Byte) ≠ 0xF1 ^^^ 0x03 ^^^ 0xFF ∧ 1023 < (0x04 : Byte).toNat * 256 + (0x00 : Byte).toNat) := by
  refine ⟨fun a h => ?_, fun a h => ?_, fun a h => ?_, by decide, by decide⟩ <;> subst h <;> decide +kernel

/-- The intervals 249, 250, 50000 and 50001; a key out of strike; a report time at the launch, with LEARN off and
on, and one before; the shifts 63, 64, 959 and 960. -/
theorem test_witness_HammerReportsEndStrikes :
    (∀ a : State, a = (heard ready [40, 0x00, 0xF9]).arrive 5 →
      a.loader.ready = true ∧ a.hub.ignoring = false ∧ a.hub.burst = [byteOf (keyNumber 39), 0x00, 0xF9] ∧
      (0x00 : Byte).toNat * 256 + (0xF9 : Byte).toNat = 249 ∧ (0x00 : Byte).toNat * 256 + (0xFA : Byte).toNat = 250 ∧
      (0xC3 : Byte).toNat * 256 + (0x50 : Byte).toNat = 50000 ∧
      (0xC3 : Byte).toNat * 256 + (0x51 : Byte).toNat = 50001 ∧
      sensedOf (a.key 39).phase ≠ some true ∧ a.queue.status ≠ .waiting) ∧
    (∀ learn ∈ ([0, 1] : List Nat), ∀ a : State,
      a = ((heard (striking 39 cueNote) [40, 0x07, 0xF8]).putSetting .learn learn).arrive
        (timePlus 100 (ready.setting .hubLatency)) →
      (a.key 39).phase = .strike cueNote workedValues launched true 50600 none ∧ a.setting .learn = learn ∧
      clockDiff (timePlus a.clock (-(a.setting .hubLatency : Int))) launched.actual = 0 ∧
      (a.key 39).flags.learnExclude = false ∧ launched.mode = .normal ∧ a.loader.commit = none) ∧
    (∀ a : State, a = (heard (striking 39 cueNote) [40, 0x07, 0xF8]).arrive
        (timePlus 99 (ready.setting .hubLatency)) →
      clockDiff (timePlus a.clock (-(a.setting .hubLatency : Int))) launched.actual < 0) ∧
    ∀ shift ∈ ([63, 64, 959, 960] : List Nat),
      ∃ r', r' = learnRecord learning 245 371 { workedValues with shift := shift } VoicingRecord.factory := by
  refine ⟨fun a h => ?_, fun n hn a h => ?_, fun a h => ?_, fun _ _ => ⟨_, rfl⟩⟩ <;> subst h
  · decide +kernel
  · simp only [List.mem_cons, List.not_mem_nil, or_false] at hn
    obtain rfl | rfl := hn <;> decide +kernel
  · decide +kernel

/-! ### Cue player and contexts -/

/-- The cue player without its low-water notice. -/
def cuedNoLow (entries : List CueEntry) (s : State := ready) : State :=
  (s.setCue { s.cue with entries := entries }).putSetting .cueLow 0

/-- An entry of each kind at the very moment of its due time and one microsecond early, CUE_LOW at 1 (0 and 1
entries left); FOLLOW on an IDLE key and a given level on a key in HOLD and in DAMP; each way an ON is
dropped; an OFF of a key and of ALL in each phase; the last OFF of an open phrase over the notes of another id. -/
theorem test_witness_CueEntriesApplied :
    (∀ rest ∈ ([[], [.endPhrase 900000], [.endPhrase 900000, .endPhrase 900000]] : List (List CueEntry)),
      ∀ e ∈ ([.endPhrase 500000, .on 39 9 .follow 500000, .off (some 39) 9 500000, .off none 9 500000] : List CueEntry),
      ∀ a : State, a = ((cued (e :: rest)).putSetting .cueLow 1).arrive
          (timePlus 500000 (-(1000 * (ready.setting .cueLookahead : Int)))) →
        a.cue.entries = e :: rest ∧ a.setting .cueLow = 1 ∧ a.port.notices.length < 31 ∧
        reached a.clock (timePlus 500000 (-(1000 * (a.setting .cueLookahead : Int)))) ∧
        ¬ reached a.clock 900000 ∧ ¬ reached a.clock (cueDue a (.endPhrase 900000)) ∧
        ¬ reached (a.clock - 1) 500000 ∧ ¬ reached (a.clock - 1) (cueDue a e) ∧ a.queue.status = .idle ∧
        a.queue.entries = [] ∧ a.contexts.cue.enabled = true ∧ (39 : Key) = transposedKey a.contexts.cue (keyNumber 39) ∧
        ¬ reached a.clock (strikeValuesOf (a.setting .velMin) (a.setting .velMax) (a.voice 39) a.pedals.shift.position
          (min 1023 (a.output (keyHalf a 39) * a.contexts.cue.levelScale / 256)) 500000).planned) ∧
    (∀ a : State, a = ((cued [.pedal .sustain 1023 500000]).putSetting .cueLow 1).arrive
        (timePlus 500000 (-(1000 * (ready.setting .pedalLeadOn : Int)))) →
      a.cue.entries = [.pedal .sustain 1023 500000] ∧ a.cue.phraseOpen = false ∧
      reached a.clock (timePlus 500000 (-(1000 * (a.setting .pedalLeadOn : Int)))) ∧
      (a.pedal .sustain).mode ≠ .fault ∧ a.contexts.roll.priority ≤ a.contexts.cue.priority) ∧
    (∀ a : State, a = ((cueBelowRoll (cued [.pedal .sustain 1023 500000])).putSetting .cueLow 1).arrive 480000 →
      (a.pedal .sustain).owner = .roll ∧ a.contexts.cue.priority < a.contexts.roll.priority) ∧
    (∀ p ∈ ([.pending cueNote workedValues, .strike cueNote workedValues launched true 50600 none,
        .strike rollNote workedValues launched true 50600 (some cueNote), .hold cueNote workedValues launched 180 0,
        .waiting cueNote 90000, .damp 90000, .retired .host] : List KeyPhase),
      ∀ a : State, a = (withKey ready 39 p).arrive 480000 → (a.key 39).phase = p) ∧
    (∀ a : State, a = (holding 39 cueNote).arrive 480000 →
      a.owner 39 = some { source := .cue, id := 9 } ∧ (a.context .cue).priority ≤ a.contexts.cue.priority ∧
      (∀ k : Key, a.owner k ≠ some { source := .cue, id := 8 }) ∧
      0 < (allKeys.filter fun k => ownedBy .cue (a.key k).phase).length) ∧
    (∀ a : State, a = (cueBelowRoll (holding 39 rollNote)).arrive 480000 →
      a.owner 39 = some { source := .roll, id := 46 } ∧ a.contexts.cue.priority < (a.context .roll).priority) := by
  refine ⟨fun rest hr e he a h => ?_, fun a h => ?_, fun a h => ?_, fun p hp a h => ?_, fun a h => ?_,
    fun a h => ?_⟩ <;> subst h
  · simp only [List.mem_cons, List.not_mem_nil, or_false] at hr he
    obtain rfl | rfl | rfl := hr <;> obtain rfl | rfl | rfl | rfl := he <;> decide +kernel
  · decide +kernel
  · decide +kernel
  · simp only [List.mem_cons, List.not_mem_nil, or_false] at hp
    obtain rfl | rfl | rfl | rfl | rfl | rfl | rfl := hp <;> decide +kernel
  · decide +kernel
  · decide +kernel

/-- The last entry, due, of a queue with phrase open set, over key 41 in HOLD for CUE. -/
def lastEntry (e : CueEntry) (s : State := ready) : State :=
  withKey ((s.setCue { s.cue with entries := [e], phraseOpen := true }).putSetting .cueLow 1) 40
    (.hold cueNote workedValues launched 180 480000)

/-- The state after the application of an entry leaves a queue that underruns. -/
abbrev underran (b : State) : Prop :=
  b.cue.phraseOpen = true ∧ 0 < (allKeys.filter fun k => ownedBy .cue (b.key k).phase).length

/-- An OFF of key 40 in HOLD stores its release time. -/
theorem off_applied (a : State) (hq : a.queue.status ≠ .waiting) (hk : transposedKey a.contexts.cue (keyNumber 39) = 39)
    (hp : (a.key 39).phase = .hold cueNote workedValues launched 180 0) (hr : ¬ reached a.clock 500000) :
    CueApplied (.off (some 39) 9 500000) a
      (a.setPhase 39 (.hold { cueNote with release := some 500000 } workedValues launched 180 0)) := by
  refine ⟨hq, rfl, fun k => ⟨fun h => ?_, fun _ h => ?_⟩⟩
  · rw [State.key_setPhase_ne]
    rintro rfl
    rcases h with h | ⟨key0, h, h'⟩
    · exact h (by rw [State.owner, hp]; rfl)
    · cases h
      exact h' hk.symm
  · obtain rfl : k = 39 := (h 39 rfl).trans hk
    rw [State.key_setPhase_same]
    refine ⟨rfl, ?_⟩
    rw [hp]
    refine ⟨by simp, by simp, by simp, ?_, ?_, by simp⟩
    · intro n v l d start h _; cases h; rfl
    · intro n v l d start h h'; exact absurd h' hr

/-- What the application leaves of the last entry of each kind: END, PEDAL taken and dropped, ON dropped, ON of an IDLE
key and of one in HOLD, OFF of a key in HOLD; all but END underrun. -/
theorem test_witness_CueApplied :
    (∀ a : State, ∃ b, CueApplied (.endPhrase 500000) a b) ∧
    (∀ a : State, a = (lastEntry (.pedal .sustain 1023 500000)).arrive 480000 →
      ∃ b, CueApplied (.pedal .sustain 1023 500000) { a with cue := { a.cue with entries := [] } } b ∧ underran b) ∧
    (∀ a : State, a = (cueBelowRoll (lastEntry (.pedal .sustain 1023 500000))).arrive 480000 →
      ∃ b, CueApplied (.pedal .sustain 1023 500000) { a with cue := { a.cue with entries := [] } } b ∧ underran b) ∧
    (∀ a : State, a = (lastEntry (.on 39 9 .follow 500000) (withKey ready 39 (.retired .host))).arrive 480000 →
      ∃ b, CueApplied (.on 39 9 .follow 500000) { a with cue := { a.cue with entries := [] } } b ∧ underran b) ∧
    (∀ a : State, a = (lastEntry (.on 39 9 (.given 600) 900000)).arrive 480000 →
      ∃ b, CueApplied (.on 39 9 (.given 600) 900000) { a with cue := { a.cue with entries := [] } } b ∧ underran b) ∧
    (∀ a : State, a = (lastEntry (.on 40 9 (.given 600) 500000)).arrive 480000 →
      ∃ b, CueApplied (.on 40 9 (.given 600) 500000) { a with cue := { a.cue with entries := [] } } b ∧ underran b) ∧
    ∀ a : State, a = (lastEntry (.off (some 39) 9 500000) (holding 39 cueNote)).arrive 480000 →
      ∃ b, CueApplied (.off (some 39) 9 500000) { a with cue := { a.cue with entries := [] } } b ∧ underran b := by
  refine ⟨fun a => ⟨_, rfl⟩, fun a h => ⟨_, .inl ⟨?_, ?_, rfl⟩, ?_⟩, fun a h => ⟨_, .inr ⟨?_, rfl⟩, ?_⟩,
    fun a h => ⟨_, ⟨39, a.output .bass, ?_, .inr ⟨rfl, ?_⟩, .inl ⟨?_, rfl⟩⟩, ?_⟩,
    fun a h => ⟨_, ⟨39, 600, ?_, .inl rfl, .inr ⟨?_, ?_, ?_, { cueNote with sound := 900000 }, 600, ?_, .inl ⟨_, ?_, ?_, rfl, ?_, ?_, ?_, rfl⟩⟩⟩, ?_⟩,
    fun a h => ⟨_, ⟨40, 600, ?_, .inl rfl, .inr ⟨?_, ?_, ?_, { cueNote with sound := 500000 }, 600, ?_, .inr ⟨_, ?_, ?_, ?_, .inr ⟨rfl, cueNote, workedValues,
      launched, 180, 480000, ?_, ?_⟩, rfl⟩⟩⟩, ?_⟩,
    fun a h => ⟨_, off_applied _ ?_ ?_ ?_ ?_, ?_⟩⟩ <;> subst h
  all_goals decide +kernel

/-- An entry whose time lies 2^31 + 1 us ahead has come, although its due time has not (R182). -/
theorem test_cue_half_way_round : (nextOf (exec (.cueEntryDue 5) (cued [.endPhrase (5 + 0x80000001)]))).map
    (fun s => s.cue.entries) = some [] := by decide +kernel

/-- An entry of a CUE_PUSH frame. -/
def entryOf (w : Nat) (n : Byte) (time : Time) : List Byte := field16 w ++ [n] ++ fieldTime time

/-- Entries of every kind, at the ends of their ranges. -/
def pushed : List CueEntry :=
  [.on 0 9 (.given 1023) 500, .on 87 9 .follow 500, .off none 9 500, .off (some 87) 9 500, .pedal .shift 1023 600,
    .endPhrase 600]

/-- Their bytes; the unused bits of the last two stand at 1. -/
def pushedBytes : List (List Byte) :=
  [entryOf 1023 1 500, entryOf 8192 88 500, entryOf 16384 0 500, entryOf 16384 88 500,
    entryOf 0xBFFF 1 600, entryOf 0xFFFF 255 600]

theorem pushed_bytes : List.Forall₂ (EntryBytes 9) pushed pushedBytes :=
  .cons ⟨1023, _, rfl, by decide⟩ <| .cons ⟨8192, _, rfl, by decide⟩ <|
    .cons ⟨16384, _, rfl, by decide, by decide, rfl, .inl ⟨rfl, rfl⟩⟩ <|
    .cons ⟨16384, _, rfl, by decide, by decide, rfl, .inr ⟨87, rfl, rfl⟩⟩ <|
    .cons ⟨0xBFFF, _, rfl, by decide⟩ <| .cons ⟨0xFFFF, _, rfl, by decide⟩ .nil

/-- Entries of every kind on a queue whose order reference is the time of the first; then an entry out of range of each
kind, one earlier than the last, and one to a full queue; a due entry pushed to an empty queue. -/
theorem test_witness_CuePushAndFlush :
    (∀ (s : State) (frames rest : List (List Byte)), s.loader.ready = true → s.port.responses.length < 16 →
      RequestAtHead ((asked s 0x26 (9 :: (frames ++ rest).flatten)).arrive 5) 0x26 7 (9 :: (frames ++ rest).flatten) ∧
      RequestAtHead ((asked s 0x27 []).arrive 5) 0x27 7 []) ∧
    (List.Forall₂ (EntryBytes 9) pushed pushedBytes ∧ timesOrdered pushed ∧ pushed.length = 6 ∧
      pushed.head?.map CueEntry.time = some 500 ∧ pushed.getLast?.map CueEntry.time = some 600 ∧
      0 ≤ clockDiff 500 500) ∧
    (EntryOutOfRange (entryOf 0 0 600) ∧ EntryOutOfRange (entryOf 0 89 600) ∧ EntryOutOfRange (entryOf 16384 89 600) ∧
      EntryOutOfRange (entryOf 32768 2 600)) ∧
    (EntryBytes 9 (.endPhrase 599) (entryOf 49152 0 599) ∧ clockDiff 599 600 < 0 ∧
      EntryBytes 9 (.endPhrase 600) (entryOf 49152 0 600) ∧ 0 ≤ clockDiff 600 600) ∧
    (∀ n : Nat, ((ready.setCue { ready.cue with
          entries := List.replicate n (.endPhrase 500), orderRef := some 500 }).arrive 5).cue.entries.length = n ∧
      ((ready.setCue { ready.cue with
          entries := List.replicate n (.endPhrase 500), orderRef := some 500 }).arrive 5).cue.orderRef = some 500) ∧
    (250 + pushed.length ≤ 256 ∧ 256 ≤ 250 + pushed.length) ∧
    ∀ (s u : State) (c : CuePlayer), c = { ready.cue with entries := [.endPhrase 5], orderRef := some 5 } →
      s = asked ready 0x26 (9 :: ([entryOf 49152 0 5] ++ []).flatten) → u = ready.setCue c →
      (s.arrive 5).cue.entries = [] ∧ reached (s.arrive 5).clock 5 ∧
        u.arrive 5 = { s.arrive 5 with
          cue := c, port := { (s.arrive 5).port with intake := (s.arrive 5).port.intake.tail } } ∧
        ∃ s', exec (.cueEntryDue 5) u = .next s' := by
  refine ⟨fun s frames rest h1 h2 => ⟨asked_atHead _ _ _ _ h1 h2, asked_atHead _ _ _ _ h1 h2⟩,
    ⟨pushed_bytes, ⟨by decide, by decide, by decide, by decide, by decide, trivial⟩, rfl, rfl, rfl, by decide⟩,
    ⟨⟨0, _, _, rfl, by decide⟩, ⟨0, _, _, rfl, by decide⟩, ⟨16384, _, _, rfl, by decide⟩, ⟨32768, _, _, rfl, by decide⟩⟩,
    ⟨⟨49152, _, rfl, by decide⟩, by decide, ⟨49152, _, rfl, by decide⟩, by decide⟩, fun n => ?_, by decide,
    fun s u c hc hs hu => ?_⟩
  · obtain ⟨_, _, _, h⟩ := (ready.setCue { ready.cue with
      entries := List.replicate n (.endPhrase 500), orderRef := some 500 }).arrive_frame 5
    rw [h]
    exact ⟨List.length_replicate, rfl⟩
  · subst hc hs hu
    rw [State.arrive_of_quiet (asked _ _ _) 5 (fun f hf => by cases hf; decide) (by decide +kernel),
      State.arrive_of_quiet (ready.setCue _) 5 (fun _ hf => by cases hf) (by decide +kernel)]
    exact ⟨rfl, by decide, rfl, _, rfl⟩

/-- The arguments of CONTEXT_WRITE of the roll. -/
def blockArguments (c : ContextBlock) : List Byte :=
  [0] ++ fieldBool c.enabled ++ [byteOf c.priority, byteOfInt c.transpose, byteOf c.keyLow, byteOf c.keyHigh]
    ++ field16 c.levelScale

/-- An invalid block, a disabling, a narrowing by one key at each end with the keys at the ends in each phase, and a
write that narrows nothing. -/
theorem test_witness_ContextWriteCompletes :
    (∀ c : ContextBlock, RequestAtHead ((asked ready 0x25 (blockArguments c)).arrive 5) 0x25 7 (blockArguments c)) ∧
    ((block true 0 88).valid = false ∧ (block true 1 89).valid = false ∧ (block true 45 44).valid = false) ∧
    ((block false 1 88).valid = true ∧ (block true 2 87).valid = true ∧ (block true 1 88).valid = true ∧
      (block true 1 1).valid = true) ∧
    ∀ p ∈ ([.pending rollNote workedValues, .strike rollNote workedValues launched true 50600 none,
        .hold rollNote workedValues launched 180 0, .waiting rollNote 90000] : List KeyPhase),
      ∀ a : State, a = (withKey (withKey ready 0 p) 87 p).arrive 5 →
        (a.context .roll).enabled = true ∧ (a.context .roll).keyLow < 2 ∧ 87 < (a.context .roll).keyHigh ∧
        1 ≤ (a.context .roll).keyLow ∧ (a.context .roll).keyHigh ≤ 88 ∧
        ownedBy .roll (a.key 0).phase = true ∧ ownedBy .roll (a.key 87).phase = true ∧ keyNumber 0 < 2 ∧
        87 < keyNumber 87 ∧ ownedBy .roll (a.key 1).phase = false := by
  refine ⟨fun c => asked_atHead _ _ _ _ rfl (by decide), by decide, by decide, fun p hp a h => ?_⟩
  subst h
  simp only [List.mem_cons, List.not_mem_nil, or_false] at hp
  obtain rfl | rfl | rfl | rfl := hp <;> decide +kernel

/-! ### The host port, the settings, the voicing table and the commit -/

/-- An intake of 7 and of 8 frames, and a port with a response, with a notice and with neither; a read between its fall
and its rise, and a transaction that is ignored. -/
theorem test_witness_TransactionsComplete :
    (∀ n ∈ ([7, 8] : List Nat), ∀ a : State, a = (ready.setPort { ready.port with
          intake := List.replicate n [0x03, 0x02, 0x07] }).arrive 5 →
      a.port.ignoring = false ∧ a.port.intake.length = n ∧ (0x03 : Byte) ≠ 0) ∧
    (∀ a : State, a = (ready.setPort { ready.port with responses :=
        [{ code := 2, tag := 7, result := .ok, overflow := false, data := fieldTime 5 }] }).arrive 5 → a.port.responses.length = 1) ∧
    (∀ a : State, a = (ready.arrive 5) → a.port.responses = [] ∧ a.port.notices = []) ∧
    (∀ a : State, a = (ready.setPort { ready.port with reading := some ⟨.nothing, [0x01]⟩ }).arrive 5 →
      a.port.reading = some ⟨.nothing, [0x01]⟩ ∧ 0 < 1) ∧
    ∀ a : State, a = (ready.setPort { ready.port with ignoring := true }).arrive 5 →
      a.port.ignoring = true ∧ a.port.reading = none := by
  refine ⟨fun n hn a h => ?_, fun a h => ?_, fun a h => ?_, fun a h => ?_, fun a h => ?_⟩ <;> subst h
  · simp only [List.mem_cons, List.not_mem_nil, or_false] at hn
    obtain rfl | rfl := hn <;> decide +kernel
  all_goals decide +kernel

/-- A transaction in progress at the full reset ends without a byte, and the next one is offered (R193). -/
theorem test_ignored_transaction_ends : (nextOf (exec (.spiWriteTransaction 5 []) (ready.setPort
      { ready.port with ignoring := true }))).bind
    (fun s => (nextOf (exec (.spiWriteTransaction 6 [3, 2, 7]) s)).map fun u => u.port.intake) = some [[3, 2, 7]] := by
  decide +kernel

/-- The numbers just outside each range and the first and last within. -/
theorem test_witness_ValueReadsComplete :
    (∀ code ∈ ([0x02, 0x03, 0x24, 0x2A] : List Nat), ∀ arguments : List Byte,
      RequestAtHead ((asked ready code arguments).arrive 5) code 7 arguments) ∧
    (∀ n ∈ ([0, 44, 255] : List Nat), (n = 0 ∨ 43 < n) ∧ n < 256) ∧
    (∀ n ∈ ([0, 89, 255] : List Nat), (n = 0 ∨ 88 < n) ∧ n < 256) ∧ 2 ≤ (2 : Byte).toNat :=
  ⟨fun code hc _ => asked_atHead _ _ _ _ rfl (by decide) (by revert code; decide), by decide, by decide, by decide⟩

/-- STATUS before the load completes, each query and each number just outside a range; a record in every state. -/
theorem test_witness_QueriesComplete :
    (((asked State.reset 1 []).arrive 5).port.responses.length < 16 ∧
      ((asked State.reset 1 []).arrive 5).port.intake.head? = some (requestFrame 1 7 [])) ∧
    (∀ code ∈ ([0x0A, 0x0C, 0x11, 0x1A, 0x22, 0x28] : List Nat), ∀ arguments : List Byte,
      RequestAtHead ((asked ready code arguments).arrive 5) code 7 arguments) ∧
    (∀ n ∈ ([102, 255] : List Nat), 101 < n ∧ n < 256) ∧ (∀ n ∈ ([0, 89, 255] : List Nat), n = 0 ∨ 88 < n) ∧
    (∀ life ∈ ([.empty, .tentative 6999 4 1, .opened 6999 4 (some (.key 39)), .bridging 1 4 none 2 4 3] :
        List ApertureLife), ((channel46 true life).apertures.records[46]).life = life) ∧
    ∀ m, ∃ mapping : Option Mapping → List Byte, mapping m = fieldOptional 1 (m.map fun x =>
      [match x with | .key k => byteOf (keyNumber k) | .disabled => 0xF0 | .outOfRange => 0xF1]) :=
  ⟨by decide +kernel,
    fun code hc _ => asked_atHead _ _ _ _ rfl (by decide) (by revert code; decide), by decide, by decide,
    by decide +kernel, fun m => ⟨fun _ => _, rfl⟩⟩

/-- A commit on its page, its settings and voicing those of the part. -/
def committing (page : Nat) : State :=
  { ready with
    loader := { ready.loader with
      commit := some { settings := ready.settings, voicing := ready.voicing, crc := 0x1234, page := page
                       cycleStart := 0, wordReached := 16 * page } } }

/-- No commit and one in flight; the pin low for a protected setting; the numbers 0, 44 and 255; a value at each end
of a range and past it; each pair one apart and equal; VEL_MIN with a key in STRIKE and with none. -/
theorem test_witness_ConfigWriteCompletes :
    (∀ (n v : Nat), RequestAtHead ((asked ready 4 (byteOf n :: field32 v)).arrive 5) 4 7 (byteOf n :: field32 v) ∧
      RequestAtHead ((asked (committing 3) 4 (byteOf n :: field32 v)).arrive 5) 4 7 (byteOf n :: field32 v)) ∧
    (∀ n ∈ ([0, 44, 255] : List Nat), (n = 0 ∨ 43 < n) ∧ n < 256) ∧
    ((committing 3).arrive 5).loader.commit.isSome = true ∧ (ready.arrive 5).loader.commit = none ∧
    (∃ x : Setting, x.row.guarded = true) ∧ (∃ x : Setting, x.row.guarded = false) ∧
    (∀ a : State, a = ready.arrive 5 → 59999 < a.setting .heatMax ∧ a.setting .heatMax = 60000 ∧
      a.setting .heatWarn < 48001 ∧ a.setting .heatWarn = 48000 ∧
      Setting.heatWarn.row.lo ≤ 59999 ∧ 59999 ≤ Setting.heatWarn.row.hi ∧
      449 < a.setting .velMax ∧ a.setting .velMax = 450 ∧ a.setting .velMin < 21 ∧ a.setting .velMin = 20 ∧
      ∀ k : Key, phaseNumber (a.key k).phase ∉ [1, 2, 3]) ∧
    (∃ k : Key, phaseNumber (((striking 39 cueNote).arrive 5).key k).phase ∈ [1, 2, 3]) ∧
    (∀ x : Setting, x.row.lo ≤ x.row.hi ∧ x.row.hi + 1 < 4294967296) ∧
    Setting.confirmLines ∉ ([.lineTimeout, .holdTimeout, .sensing, .poolCapacity, .cueLookahead, .pedalLeadOn,
      .laneEnable, .edgeRun, .nominalWidth, .widthTol, .spanRatio, .velMin, .velMax] : List Setting) := by
  refine ⟨fun n v => ⟨asked_atHead _ _ _ _ rfl (by decide), asked_atHead _ _ _ _ rfl (by decide)⟩, by decide, ?_, ?_,
    ⟨.heatMax, by decide⟩, ⟨.confirmLines, by decide⟩, fun a h => ?_, ⟨39, by decide +kernel⟩, fun x => ?_, by decide⟩
  · decide +kernel
  · decide +kernel
  · subst h
    decide +kernel
  · cases x <;> decide

/-- A current line and none; holds at the timeout and one microsecond younger; sensed strikes at the end of their
flight and before, with and without a successor and a release time; a pool one unit short of the head's duty, of
the claims, and equal to each; a cue queue empty, not due, and due only by the new lead. -/
theorem test_witness_ConfigWriteEffects :
    (ready.arrive 5).scan.current = none ∧
    ((ready.setScan { ready.scan with current := some partLine }).arrive 5).scan.current = some partLine ∧
    (∀ a : State, a = (withKey (holding 39 cueNote) 40 (.hold rollNote workedValues launched 180 1)).arrive 20000000 →
      (allKeys.filter fun k => decide (20 ≠ 0) && !(a.key k).flags.holdExempt &&
        match holdOf (a.key k).phase with
        | some h => reached a.clock (timePlus h.2 (1000000 * (20 : Int)))
        | none => false) = [39] ∧
      a.queue.status ≠ .waiting ∧ a.port.notices.length + 1 ≤ 32) ∧
    (∀ p ∈ ([.strike cueNote workedValues launched true 50600 none,
        .strike { cueNote with release := some 35600 } workedValues launched true 50600 none,
        .strike cueNote workedValues launched true 50600 (some rollNote)] : List KeyPhase),
      ∀ a : State, a = (withKey ready 39 p).arrive 35600 →
        (a.key 39).phase = p ∧ reached a.clock (timePlus launched.actual (100 * (workedValues.flight : Int))) ∧
        ¬ reached 35599 (timePlus launched.actual (100 * (workedValues.flight : Int))) ∧
        reached a.clock 35600 ∧ a.heatOf 39 < a.heat.max ∧ (a.key 39).flags.mute = false ∧ a.quiet = false ∧
        (∀ j : Key, j ≠ 39 → sensedOf (a.key j).phase ≠ some true) ∧ ∀ k : Key, a.heatOf k < a.heat.max) ∧
    (∀ a : State, a = { (withKey (queued 39 cueNote) 5 (.strike rollNote workedValues launched true 90000 none)) with
        queue := { entries := [{ key := 39, planned := 84500 }], status := .waiting } }.arrive 84500 →
      a.queue.status = .waiting ∧ a.queue.entries = [{ key := 39, planned := 84500 }] ∧
      (a.key 39).phase = .pending cueNote workedValues ∧ reached a.clock 84500 ∧ a.heatOf 39 < a.heat.max ∧
      (a.key 39).flags.mute = false ∧ a.quiet = false ∧ 0 < claimSum a ∧
      claimSum a + workedValues.duty - 1 < claimSum a + workedValues.duty) ∧
    (∀ a : State, a = (cued [.endPhrase 800000, .endPhrase 1100000]).arrive 400000 →
      a.cue.entries = [.endPhrase 800000, .endPhrase 1100000] ∧ ¬ reached a.clock 800000 ∧
      ¬ reached a.clock (cueDue a (.endPhrase 800000)) ∧ reached a.clock (timePlus 800000 (-(1000 * 400))) ∧
      ¬ reached a.clock (timePlus 800000 (-(1000 * 399))) ∧ ¬ reached a.clock 1100000 ∧ 1 ≠ a.setting .cueLow) ∧
    ∀ a : State, a = (sustained { PedalRecord.atReset with owner := .cue }).arrive 5 →
      (a.pedal .sustain).mode ≠ .fault ∧ (a.pedal .sustain).owner = .cue ∧ a.cue.entries = [] := by
  refine ⟨by decide +kernel, by decide +kernel, fun a h => ?_, fun p hp a h => ?_, fun a h => ?_, fun a h => ?_,
    fun a h => ?_⟩ <;> subst h
  · decide +kernel
  · simp only [List.mem_cons, List.not_mem_nil, or_false] at hp
    obtain rfl | rfl | rfl := hp <;> decide +kernel
  · decide +kernel
  · decide +kernel
  · decide +kernel

/-- The record's bytes as VOICE_WRITE carries them. -/
def factoryBytes : List Byte :=
  VoicingRecord.factory.duties.toList.flatMap field16 ++ VoicingRecord.factory.flights.toList.flatMap field16
    ++ field16 VoicingRecord.factory.holdDuty ++ field16Int VoicingRecord.factory.softTrim
    ++ field16 VoicingRecord.factory.repeatGap

/-- The bytes of the factory record and of one that is not valid; the keys 1 and 88, the numbers 0 and 89; the pin
low and high, no commit and one in flight. -/
theorem test_witness_VoiceWriteAndCommit :
    (∀ (n : Nat) (bytes : List Byte), RequestAtHead ((asked ready 0x2B (byteOf n :: bytes)).arrive 5) 0x2B 7
        (byteOf n :: bytes) ∧
      RequestAtHead ((asked (committing 3) 0x2B (byteOf n :: bytes)).arrive 5) 0x2B 7 (byteOf n :: bytes) ∧
      RequestAtHead ((asked (committing 3) 0x2C []).arrive 5) 0x2C 7 [] ∧
      RequestAtHead ((asked ready 0x2C []).arrive 5) 0x2C 7 []) ∧
    factoryBytes.length = 38 ∧
    (recordOfWords fun j => valueOf ((factoryBytes.drop (2 * j)).take 2)).valid = true ∧
    (List.replicate 38 (0 : Byte)).length = 38 ∧
    (recordOfWords fun j => valueOf (((List.replicate 38 (0 : Byte)).drop (2 * j)).take 2)).valid = false ∧
    ((committing 3).arrive 5).loader.commit.isSome = true ∧ (ready.arrive 5).loader.commit = none := by
  refine ⟨fun n bytes => ⟨asked_atHead _ _ _ _ rfl (by decide), asked_atHead _ _ _ _ rfl (by decide),
    asked_atHead _ _ _ _ rfl (by decide), asked_atHead _ _ _ _ rfl (by decide)⟩, ?_⟩
  decide +kernel

/-- The first, the second, the last but one and the last page, with the word each reaches; 20 ms since the cycle's
start and a microsecond less. -/
theorem test_witness_CommitPagesWritten :
    (∀ page ∈ ([0, 1, 115, 116] : List Nat), ∀ a : State, a = (committing page).arrive 20000 →
      (∃ c, a.loader.commit = some c ∧ c.page = page ∧ reached a.clock (timePlus c.cycleStart 20000) ∧
        ¬ reached 19999 (timePlus c.cycleStart 20000)) ∧
      EepromSafe a ∧ a.port.notices.length < 32) ∧
    min (16 * 1 - 1) 1827 = 15 ∧ min (16 * 115 - 1) 1827 = 1827 := by
  refine ⟨fun page hp a h => ?_, by decide⟩
  subst h
  simp only [List.mem_cons, List.not_mem_nil, or_false] at hp
  obtain rfl | rfl | rfl | rfl := hp <;>
    exact ⟨⟨_, rfl, by decide +kernel, by decide +kernel, by decide +kernel⟩, by unfold EepromSafe; decide +kernel,
      by decide +kernel⟩

end Sys2Proof.Machine
end

section
/-! The header correction code: its check is linear, so one inverted bit leaves the position of that bit as the
syndrome (01_scan_link R2, R3). -/

namespace Sys2Proof.Machine

/-! ### The syndrome and the overall check of a received word -/

/-- A received bit inverted, its position kept. -/
def invertBit (e : Nat × Bool) : Nat × Bool := (e.1, !e.2)

/-- What one received bit adds to the syndrome. -/
def bitPosition (e : Nat × Bool) : Nat := if e.2 then e.1 else 0

theorem syndrome_cons (e : Nat × Bool) (word : List (Nat × Bool)) :
    syndrome (e :: word) = bitPosition e ^^^ syndrome word := by
  have from_start : ∀ (w : List (Nat × Bool)) (x : Nat),
      w.foldl (fun x e => if e.2 then x ^^^ e.1 else x) x = x ^^^ syndrome w := by
    intro w
    induction w with
    | nil => intro x; simp [syndrome]
    | cons e w ih =>
      intro x
      rw [syndrome, List.foldl_cons, List.foldl_cons, ih, ih]
      cases e.2 <;> simp [Nat.xor_assoc]
  rw [syndrome, List.foldl_cons, from_start]
  simp [bitPosition]

theorem overallWrong_cons (e : Nat × Bool) (word : List (Nat × Bool)) (p : Bool) :
    overallWrong (e :: word) p = overallWrong word (p != e.2) := rfl

theorem overallWrong_not (word : List (Nat × Bool)) (p : Bool) :
    overallWrong word (!p) = !overallWrong word p := by
  induction word generalizing p with
  | nil => rfl
  | cons e word ih => rw [overallWrong_cons, overallWrong_cons, ← ih, Bool.not_bne]

/-- One inverted bit moves the syndrome by the position of that bit. -/
theorem syndrome_invert (word : List (Nat × Bool)) (i : Nat) (e : Nat × Bool) (h : word[i]? = some e) :
    syndrome (word.modify i invertBit) = e.1 ^^^ syndrome word := by
  induction word generalizing i with
  | nil => cases h
  | cons a word ih =>
    cases i with
    | zero =>
      obtain rfl : a = e := by simpa using h
      rw [List.modify_zero_cons, syndrome_cons, syndrome_cons, ← Nat.xor_assoc]
      obtain ⟨position, bit⟩ := a
      cases bit <;> simp [bitPosition, invertBit]
    | succ i =>
      rw [List.modify_succ_cons, syndrome_cons, syndrome_cons, ih i (by simpa using h), Nat.xor_left_comm]

/-- One inverted bit changes the overall check. -/
theorem overallWrong_invert (word : List (Nat × Bool)) (p : Bool) (i : Nat) (h : i < word.length) :
    overallWrong (word.modify i invertBit) p = !overallWrong word p := by
  induction word generalizing i p with
  | nil => cases h
  | cons a word ih =>
    cases i with
    | zero => rw [List.modify_zero_cons, overallWrong_cons, overallWrong_cons, ← overallWrong_not]; simp [invertBit]
    | succ i => exact ih (p != a.2) i (Nat.lt_of_succ_lt_succ h)

/-! ### The outcomes of the header check -/

/-- A header is clean when the syndrome is 0 and the overall check holds (R3). -/
theorem checkHeader_clean_iff (header clean : BitVec 24) (check : Byte) :
    checkHeader header check = .clean clean ↔
      syndrome (codeWord header check) = 0 ∧ overallWrong (codeWord header check) (check.getLsbD 5) = false ∧
        header = clean := by
  unfold checkHeader
  dsimp only
  repeat' split
  all_goals simp_all

theorem invertAt_zero (header : BitVec 24) : invertAt header 0 = header := rfl

/-- With the overall check wrong, a syndrome below 30 names the bit to invert (R3). -/
theorem checkHeader_of_wrong (header : BitVec 24) (check : Byte)
    (hw : overallWrong (codeWord header check) (check.getLsbD 5) = true)
    (hs : syndrome (codeWord header check) < 30) :
    checkHeader header check = .corrected (invertAt header (syndrome (codeWord header check))) := by
  unfold checkHeader
  simp only [hw, if_true, if_neg (Nat.not_le.mpr hs)]
  split
  · rename_i h0; rw [h0, invertAt_zero]
  · rfl

/-! ### The received word -/

theorem codeWord_data (header : BitVec 24) (check : Byte) (i : Nat) (h : i < dataPositions.length) :
    (codeWord header check)[i]? = some (dataPositions[i], header.getMsbD i) := by
  rw [codeWord, List.getElem?_append_left (by simpa using h), List.getElem?_mapIdx, List.getElem?_eq_getElem h]
  rfl

theorem codeWord_check (header : BitVec 24) (check : Byte) (j : Nat) (h : j < 5) :
    (codeWord header check)[24 + j]? = some (2 ^ j, check.getLsbD j) := by
  have hl : (dataPositions.mapIdx fun i p => (p, header.getMsbD i)).length = 24 := List.length_mapIdx
  rw [codeWord, List.getElem?_append_right (by omega), hl, Nat.add_sub_cancel_left]
  simp [h]

theorem codeWord_length (header : BitVec 24) (check : Byte) : (codeWord header check).length = 29 := by
  simp [codeWord, dataPositions]

/-- An entry of the received word: a header bit or a check bit. -/
theorem codeWord_ext (word : List (Nat × Bool)) (header : BitVec 24) (check : Byte) (hl : word.length = 29)
    (hd : ∀ (i : Nat) (h : i < dataPositions.length), word[i]? = some (dataPositions[i], header.getMsbD i))
    (hc : ∀ j < 5, word[24 + j]? = some (2 ^ j, check.getLsbD j)) : word = codeWord header check := by
  refine List.ext_getElem? fun i => ?_
  rcases Nat.lt_or_ge i 24 with h | h
  · rw [hd i h, codeWord_data header check i h]
  · rcases Nat.lt_or_ge i 29 with h' | h'
    · obtain ⟨j, rfl⟩ := Nat.exists_eq_add_of_le h
      rw [hc j (by omega), codeWord_check header check j (by omega)]
    · rw [List.getElem?_eq_none (by omega), List.getElem?_eq_none (by rw [codeWord_length]; omega)]

theorem getLsbD_xor_shift {w : Nat} (x : BitVec w) (i j : Nat) (hi : i < w) :
    (x ^^^ ((1 : BitVec w) <<< j)).getLsbD i = (x.getLsbD i != decide (j = i)) := by
  have shifted : ((1 : BitVec w) <<< j).getLsbD i = decide (j = i) := by
    rw [show (1 : BitVec w) <<< j = BitVec.twoPow w j from rfl, BitVec.getLsbD_twoPow]
    by_cases e : j = i
    · simp [e, hi]
    · simp [e]
  rw [BitVec.getLsbD_xor, shifted]

/-- A header bit inverted inverts its entry of the received word. -/
theorem codeWord_invert_data (header : BitVec 24) (check : Byte) (j : Fin 24) :
    (codeWord header check).modify (23 - j.val) invertBit =
      codeWord (header ^^^ ((1 : BitVec 24) <<< j.val)) check := by
  refine codeWord_ext _ _ _ (by simp [codeWord_length]) (fun i h => ?_) fun i h => ?_
  · have hi : i < 24 := h
    rw [List.getElem?_modify, codeWord_data header check i h]
    have place : j.val = 23 - i ↔ 23 - j.val = i := by omega
    have bit : (header ^^^ ((1 : BitVec 24) <<< j.val)).getMsbD i =
        (header.getMsbD i != decide (23 - j.val = i)) := by
      rw [BitVec.getMsbD, BitVec.getMsbD, getLsbD_xor_shift _ _ _ (by omega)]
      simp [hi, place]
    rw [bit]
    by_cases e : 23 - j.val = i <;> simp [e, invertBit]
  · have e : 23 - j.val ≠ 24 + i := by omega
    rw [List.getElem?_modify, codeWord_check header check i h]
    simp [e]

/-- A check bit inverted inverts its entry of the received word. -/
theorem codeWord_invert_check (header : BitVec 24) (check : Byte) (j : Nat) (hj : j < 5) :
    (codeWord header check).modify (24 + j) invertBit = codeWord header (check ^^^ ((1 : Byte) <<< j)) := by
  refine codeWord_ext _ _ _ (by simp [codeWord_length]) (fun i h => ?_) fun i h => ?_
  · have e : 24 + j ≠ i := by have : i < 24 := h; omega
    rw [List.getElem?_modify, codeWord_data header check i h]
    simp [e]
  · rw [List.getElem?_modify, codeWord_check header check i h, getLsbD_xor_shift _ _ _ (by omega)]
    by_cases e : j = i <;> simp [e, invertBit]

/-! ### One inverted bit -/

/-- A clean word with the entry of one position inverted is corrected at that position (R3). -/
theorem checkHeader_of_invert (header header' : BitVec 24) (check check' : Byte) (i position : Nat) (bit : Bool)
    (hclean : checkHeader header check = .clean header) (hi : (codeWord header check)[i]? = some (position, bit))
    (hword : (codeWord header check).modify i invertBit = codeWord header' check')
    (hp : check'.getLsbD 5 = check.getLsbD 5) (hlt : position < 30) :
    checkHeader header' check' = .corrected (invertAt header' position) := by
  obtain ⟨hsyn, hover, -⟩ := (checkHeader_clean_iff header header check).mp hclean
  obtain ⟨hlen, -⟩ := List.getElem?_eq_some_iff.mp hi
  have syn : syndrome (codeWord header' check') = position := by
    rw [← hword, syndrome_invert _ i _ hi, hsyn, Nat.xor_zero]
  have wrong : overallWrong (codeWord header' check') (check'.getLsbD 5) = true := by
    rw [← hword, hp, overallWrong_invert _ _ i hlen, hover]; rfl
  rw [checkHeader_of_wrong header' check' wrong (by rw [syn]; exact hlt), syn]

/-- Header bit j stands at the position of entry 23 - j. -/
theorem invertAt_data (header : BitVec 24) (j : Fin 24) :
    invertAt header (dataPositions[23 - j.val]'(by simp [dataPositions]; omega)) =
      header ^^^ ((1 : BitVec 24) <<< j.val) := by
  have nodup : dataPositions.Nodup := by decide
  rw [invertAt, if_pos (List.getElem_mem _), nodup.idxOf_getElem, Nat.sub_sub_self (by omega)]

/-- A check bit's position is none of the header's. -/
theorem invertAt_check (header : BitVec 24) (j : Nat) (hj : j < 5) : invertAt header (2 ^ j) = header :=
  if_neg ((by decide : ∀ j < 5, 2 ^ j ∉ dataPositions) j hj)

theorem checkHeader_of_data_invert (header : BitVec 24) (check : Byte) (h : checkHeader header check = .clean header)
    (j : Fin 24) : checkHeader (header ^^^ ((1 : BitVec 24) <<< j.val)) check = .corrected header := by
  have hj : 23 - j.val < dataPositions.length := by simp [dataPositions]; omega
  have small : ∀ p ∈ dataPositions, p < 30 := by decide
  rw [checkHeader_of_invert header _ check check _ _ _ h (codeWord_data header check _ hj)
    (codeWord_invert_data header check j) rfl (small _ (List.getElem_mem _)), invertAt_data, BitVec.xor_assoc,
    BitVec.xor_self, BitVec.xor_zero]

theorem checkHeader_of_check_invert (header : BitVec 24) (check : Byte)
    (h : checkHeader header check = .clean header) (j : Nat) (hj : j < 5) :
    checkHeader header (check ^^^ ((1 : Byte) <<< j)) = .corrected header := by
  have kept : (check ^^^ ((1 : Byte) <<< j)).getLsbD 5 = check.getLsbD 5 := by
    rw [getLsbD_xor_shift _ _ _ (by decide), decide_eq_false (by omega), Bool.bne_false]
  rw [checkHeader_of_invert header header check _ _ _ _ h (codeWord_check header check j hj)
    (codeWord_invert_check header check j hj) kept ((by decide : ∀ j < 5, 2 ^ j < 30) j hj),
    invertAt_check header j hj]

/-- The overall check bit p inverted leaves the received word as it was, with the overall check wrong. -/
theorem checkHeader_of_overall_invert (header : BitVec 24) (check : Byte)
    (h : checkHeader header check = .clean header) :
    checkHeader header (check ^^^ ((1 : Byte) <<< 5)) = .corrected header := by
  obtain ⟨hsyn, hover, -⟩ := (checkHeader_clean_iff header header check).mp h
  have word : codeWord header (check ^^^ ((1 : Byte) <<< 5)) = codeWord header check :=
    codeWord_ext _ _ _ (codeWord_length _ _) (fun i hi => codeWord_data _ _ i hi) fun j hj => by
      rw [codeWord_check _ _ j hj, getLsbD_xor_shift _ _ _ (by omega), decide_eq_false (by omega), Bool.bne_false]
  have p : (check ^^^ ((1 : Byte) <<< 5)).getLsbD 5 = !check.getLsbD 5 := by simp
  rw [checkHeader_of_wrong _ _ (by rw [word, p, overallWrong_not, hover]; rfl) (by rw [word, hsyn]; decide), word,
    hsyn, invertAt_zero]

/-- Settles O23: an inverted bit of the header or of c0 to c4 leaves its position as the syndrome, and an inverted p
leaves the syndrome 0. -/
theorem headerCodeCorrectsOneBit : Obligations.HeaderCodeCorrectsOneBit := by
  intro header check h
  refine ⟨checkHeader_of_data_invert header check h, fun j => ?_⟩
  rcases Nat.lt_or_ge j.val 5 with hj | hj
  · exact checkHeader_of_check_invert header check h j.val hj
  · rw [show j.val = 5 by omega]
    exact checkHeader_of_overall_invert header check h

end Sys2Proof.Machine
end

section
/-! What a roll event leaves alone, and what a departure from LOCKED leaves of the roll (02_roll_tracking R29 to
R32). -/

namespace Sys2Proof.Machine

/-! ### The frame of a roll event -/

/-- The parts that no handling of a line and no departure from LOCKED touches: the scan receiver but for its timer,
the clock, the settings, the source contexts, the voicing table, the heat monitor, the cue player and what the
host alone changes. -/
structure RollFrame (s s' : State) : Prop where
  scan : s'.scan = { s.scan with lineTimer := s'.scan.lineTimer }
  clock : s'.clock = s.clock
  servicePin : s'.servicePin = s.servicePin
  settings : s'.settings = s.settings
  contexts : s'.contexts = s.contexts
  quiet : s'.quiet = s.quiet
  heat : s'.heat = s.heat
  hub : s'.hub = s.hub
  voicing : s'.voicing = s.voicing
  cue : s'.cue = s.cue
  loader : s'.loader = s.loader
  openCount : s'.openCount = s.openCount
  pending : s'.pending = s.pending

namespace RollFrame

theorem refl (s : State) : RollFrame s s := by constructor <;> rfl

theorem trans {s s' s'' : State} (h : RollFrame s s') (h' : RollFrame s' s'') : RollFrame s s'' where
  scan := by rw [h'.scan, h.scan]
  clock := h'.clock.trans h.clock
  servicePin := h'.servicePin.trans h.servicePin
  settings := h'.settings.trans h.settings
  contexts := h'.contexts.trans h.contexts
  quiet := h'.quiet.trans h.quiet
  heat := h'.heat.trans h.heat
  hub := h'.hub.trans h.hub
  voicing := h'.voicing.trans h.voicing
  cue := h'.cue.trans h.cue
  loader := h'.loader.trans h.loader
  openCount := h'.openCount.trans h.openCount
  pending := h'.pending.trans h.pending

/-- What a roll event may change. -/
theorem of_update (s : State) (timer : Option Time) (tracker : Tracker) (apertures : ApertureTable)
    (expression : Expression) (keys : Vector KeyRecord 88) (queue : StrikeQueue) (pedals : PedalServo)
    (port : HostPort) :
    RollFrame s { s with
      scan := { s.scan with lineTimer := timer }
      tracker := tracker
      apertures := apertures
      expression := expression
      keys := keys
      queue := queue
      pedals := pedals
      port := port } := by constructor <;> rfl

/-! #### Single updates -/

theorem setTracker (t : Tracker) (s : State) : RollFrame s (s.setTracker t) :=
  of_update s _ t _ _ _ _ _ _

theorem setPhase (k : Key) (p : KeyPhase) (s : State) : RollFrame s (s.setPhase k p) :=
  of_update s _ _ _ _ _ _ _ _

theorem enterPending (k : Key) (n : Note) (v : StrikeValues) (s : State) : RollFrame s (enterPending k n v s) :=
  of_update s _ _ _ _ _ _ _ _

theorem setHalf (h : Half) (c : HalfContext) (s : State) : RollFrame s (s.setHalf h c) := by
  cases h <;> exact of_update s _ _ _ _ _ _ _ _

theorem setPedal (p : Pedal) (r : PedalRecord) (s : State) : RollFrame s (s.setPedal p r) := by
  cases p <;> exact of_update s _ _ _ _ _ _ _ _

theorem raise (kind : NoticeKind) (fields : List Byte) (s : State) : RollFrame s (s.raise kind fields) := by
  unfold State.raise
  split <;> exact of_update s _ _ _ _ _ _ _ _

theorem settling {f : State → State} {s : State} (placed : Option Key) (h : RollFrame s (f s)) :
    RollFrame s (settling placed f s) := by
  obtain ⟨keys, queue, e, -, -⟩ := settling_frame placed f s
  rw [e]
  exact h.trans (of_update (f s) _ _ _ _ keys queue _ _)

/-! #### The events of a line (R44 to R51) -/

theorem levelNote (c : Claim) (s : State) : RollFrame s (levelNote c s).1 := by
  unfold Machine.levelNote
  cases c.level with
  | roll onset accent => exact setHalf _ _ s
  | given level => exact refl s
  | follow => exact refl s

theorem takeClaim (c : Claim) (s : State) : RollFrame s (takeClaim c s) := by
  have leveled := levelNote c s
  unfold Machine.takeClaim
  split
  rename_i s1 n e
  rw [e] at leveled
  split
  · exact leveled.trans (enterPending _ _ _ s1)
  · exact leveled.trans (enterPending _ _ _ s1)
  · exact leveled.trans (setPhase _ _ s1)
  · exact leveled.trans (setPhase _ _ s1)
  · exact leveled.trans (setPhase _ _ s1)
  · exact leveled.trans (setPhase _ _ s1)
  · exact leveled.trans (setPhase _ _ s1)
  · exact refl s

theorem claim (c : Claim) (s : State) : RollFrame s (claim c s).1 := by
  rcases claim_spec c s with ⟨-, e⟩ | ⟨-, -, e⟩ | ⟨-, -, -, e⟩ | ⟨-, -, -, e⟩ <;> rw [e]
  · exact refl s
  · exact refl s
  · exact refl s
  · exact settling _ (takeClaim c s)

theorem closeKey (o : Owner) (release : Time) (k : Key) (s : State) : RollFrame s (closeKey o release k s) := by
  rcases closeKey_spec o release k s with e | ⟨-, p, e⟩ <;> rw [e]
  · exact refl s
  · exact setPhase k p s

theorem rollPedalEvent (p : Pedal) (time : Time) (target : Nat) (s : State) :
    RollFrame s (rollPedalEvent p time target s) := by
  unfold Machine.rollPedalEvent
  dsimp only
  split
  · exact (setPedal p _ s).trans (setPedal p _ _)
  · exact refl s

theorem rollNoteOpen (c : Channel) (k : Key) (onsetLine : LineNo) (onsetTime : Time) (s : State) :
    RollFrame s (rollNoteOpen c k onsetLine onsetTime s) := by
  unfold Machine.rollNoteOpen
  dsimp only
  split
  · exact claim _ s
  · exact (claim _ s).trans (of_update _ _ _ _ _ _ _ _ _)

theorem sendControl (c : Channel) (e : ApertureEvent) (s : State) : RollFrame s (sendControl c e s) := by
  unfold Machine.sendControl
  split
  · exact setHalf _ _ s
  · exact setHalf _ _ s
  · exact refl s

theorem sendNoteClose (c : Channel) (e : ApertureEvent) (s : State) : RollFrame s (sendNoteClose c e s) := by
  unfold Machine.sendNoteClose
  split
  · exact settling _ (closeKey _ _ _ s)
  · exact refl s

theorem sendNoteOpen (c : Channel) (e : ApertureEvent) (s : State) : RollFrame s (sendNoteOpen c e s) := by
  unfold Machine.sendNoteOpen
  split
  · exact rollNoteOpen _ _ _ _ s
  · exact refl s

theorem sendPedal (c : Channel) (e : ApertureEvent) (s : State) : RollFrame s (sendPedal c e s) := by
  unfold Machine.sendPedal
  split
  · exact rollPedalEvent _ _ _ s
  · exact rollPedalEvent _ _ _ s
  · exact refl s

theorem sendGroup {send : Channel → ApertureEvent → State → State}
    (h : ∀ c e s, RollFrame s (send c e s)) (events : List (Channel × ApertureEvent)) (s : State) :
    RollFrame s (sendGroup send events s) := by
  unfold Machine.sendGroup
  induction events generalizing s with
  | nil => exact refl s
  | cons e events ih => exact (h e.1 e.2 s).trans (ih _)

theorem takeSampledLine (line : LineNo) (time : Time) (states : Vector Bool 102) (s : State) :
    RollFrame s (takeSampledLine line time states s) :=
  (((((of_update s _ _ _ _ _ _ _ _).trans (sendGroup sendControl _ _)).trans
    (sendGroup sendNoteClose _ _)).trans (sendGroup sendNoteOpen _ _)).trans (sendGroup sendPedal _ _))

/-! #### The tracker (R17 to R31) -/

theorem rollWithdrawal (s : State) : RollFrame s (rollWithdrawal s) :=
  (settling none (of_update s _ _ _ _ _ _ _ _)).trans (of_update _ _ _ _ _ _ _ _ _)

theorem enterLost (reason : LossReason) (line : LineNo) (s : State) : RollFrame s (enterLost reason line s) :=
  (((of_update s _ _ _ _ _ _ _ _).trans (rollWithdrawal _)).trans (of_update _ none _ _ _ _ _ _ _)).trans
    (raise _ _ _)

theorem rollEnd (line : LineNo) (s : State) : RollFrame s (rollEnd line s) :=
  (((of_update s _ _ _ _ _ _ _ _).trans (rollWithdrawal _)).trans (of_update _ none _ _ _ _ _ _ _)).trans
    (raise _ _ _)

theorem seekLine (ln : CompletedLine) (s : State) : RollFrame s (seekLine ln s) := by
  unfold Machine.seekLine
  dsimp only
  split
  · exact ((setTracker _ s).trans (of_update _ _ _ _ _ _ _ _ _)).trans (raise _ _ _)
  · exact setTracker _ s

theorem sendHeldLines (ln : CompletedLine) (left : Nat) (s : State) : RollFrame s (sendHeldLines ln left s) := by
  induction left generalizing s with
  | zero => exact refl s
  | succ left ih => exact (takeSampledLine _ _ _ s).trans (ih _)

theorem sampleLine (ln : CompletedLine) (s : State) : RollFrame s (sampleLine ln s) := by
  unfold Machine.sampleLine
  extract_lets states marks
  split
  · exact rollEnd _ s
  · exact (setTracker _ s).trans (takeSampledLine _ _ _ _)

theorem followLine (ln : CompletedLine) (s : State) : RollFrame s (followLine ln s) := by
  unfold Machine.followLine
  dsimp only
  split
  · exact ((setTracker _ s).trans (enterLost _ _ _)).trans (seekLine ln _)
  · exact (setTracker _ s).trans (sampleLine ln _)

theorem lockedLine (ln : CompletedLine) (s : State) : RollFrame s (lockedLine ln s) := by
  unfold Machine.lockedLine
  split
  · exact (enterLost _ _ s).trans (seekLine ln _)
  · exact (sendHeldLines ln _ s).trans (followLine ln _)

theorem applyRestartMark (s : State) : RollFrame s (applyRestartMark s) := by
  unfold Machine.applyRestartMark
  dsimp only
  split
  · exact (setTracker _ s).trans (setTracker _ _)
  · exact setTracker _ s

/-- A completed line taken by the tracker keeps to the frame, whatever the tracker's state. -/
theorem takeLine (ln : CompletedLine) (s : State) : RollFrame s (takeLine ln s) := by
  have marked : RollFrame s (if ln.mark then Machine.applyRestartMark s else s) := by
    split
    · exact applyRestartMark s
    · exact refl s
  unfold Machine.takeLine
  dsimp only
  split
  · exact marked
  · exact marked.trans ((setTracker _ _).trans (seekLine ln _))
  · exact marked.trans ((setTracker _ _).trans (seekLine ln _))
  · exact marked.trans ((setTracker _ _).trans (lockedLine ln _))

end RollFrame

/-! ### Withdrawal (R106) -/

/-- Settling leaves a key that the event leaves out of PENDING as the event left it. -/
theorem settling_key_of_not_pending (placed : Option Key) (f : State → State) (s : State) (k : Key)
    (h : isPending ((f s).key k).phase = false) : (settling placed f s).key k = (f s).key k := by
  obtain ⟨keys, queue, e, -, launched⟩ := settling_frame placed f s
  rw [e]
  rcases launched k with hk | ⟨hp, -⟩
  · exact hk
  · rw [h] at hp; cases hp

theorem withdrawnPhase_not_pending (now gapEnd : Time) (p : KeyPhase) :
    isPending (withdrawnPhase now gapEnd p) = false := by
  cases p with
  | strike n v l sensed t m => cases m <;> rfl
  | _ => rfl

/-- A source's keys withdrawn, with the one examination of the head after it (R106, R132). -/
theorem withdrawnKey_of_withdrawSource (source : Source) (s : State) (k : Key) :
    WithdrawnKey source s (settling none (withdrawSource source) s) k := by
  have key : (withdrawSource source s).key k = { s.key k with
      phase := if ownedBy source (s.key k).phase then
        withdrawnPhase s.clock (gapEndNow s k) (s.key k).phase else (s.key k).phase } := updatePhases_key _ s k
  refine ⟨fun owned => ?_, fun other waits => ?_⟩
  · rw [if_pos owned] at key
    have settled := settling_key_of_not_pending none (withdrawSource source) s k
      (by rw [key]; exact withdrawnPhase_not_pending _ _ _)
    rw [settled, key]
    refine ⟨?_, ?_, ?_, ?_, ?_⟩ <;> intros <;> rename_i e <;> rw [e] <;> rfl
  · rw [other] at key
    have settled := settling_key_of_not_pending none (withdrawSource source) s k (by rw [key]; exact waits)
    rw [settled, key]
    rfl

/-! ### Departures from LOCKED (R29, R31, R32) -/

/-- The roll's pedals let go (R174). -/
theorem withdrawPedals_pedal (s : State) (p : Pedal) : (withdrawPedals s).pedal p =
    if (s.pedal p).owner = .roll then { s.pedal p with events := [], target := 0 } else s.pedal p := by
  cases p <;> rfl

theorem clearLatches_half (s : State) (h : Half) :
    (clearLatches s).half h = { s.half h with latch := none } := by
  cases h <;> rfl

/-- The roll withdrawal changes the keys, the strike queue, the pedals and the chord latches alone (R32). -/
theorem rollWithdrawal_eq (s : State) : ∃ keys queue, rollWithdrawal s = { s with
    keys := keys
    queue := queue
    pedals := (withdrawPedals s).pedals
    expression := (clearLatches s).expression } := by
  obtain ⟨keys, queue, e, -, -⟩ := settling_frame none (withdrawSource .roll) s
  obtain ⟨keys', queue', e'⟩ :
      ∃ keys' queue', withdrawSource .roll s = { s with keys := keys', queue := queue' } :=
    ⟨_, _, rfl⟩
  rw [e'] at e
  exact ⟨keys, queue, by rw [rollWithdrawal, e]; rfl⟩

/-- What entering another tracker state from LOCKED leaves: the apertures emptied, the roll withdrawn, the line timer
stopped, the latches absent, and the port as it was. -/
theorem departure_spec (t : Tracker) (s s' : State)
    (h : stopLineTimer (rollWithdrawal (emptyApertures (s.setTracker t))) = s') :
    RollLeft s s' ∧ s'.tracker = t ∧ (∀ h : Half, s'.half h = { s.half h with latch := none }) ∧
      s'.port = s.port := by
  have withdrawn : ∀ k, WithdrawnKey .roll s s' k := fun k => by
    rw [← h]; exact withdrawnKey_of_withdrawSource .roll (emptyApertures (s.setTracker t)) k
  obtain ⟨keys, queue, e⟩ := rollWithdrawal_eq (emptyApertures (s.setTracker t))
  rw [e] at h
  subst h
  refine ⟨⟨fun c => ?_, rfl, rfl, rfl, withdrawn, withdrawPedals_pedal s, rfl, rfl, rfl, rfl, rfl, rfl, rfl, rfl,
    rfl, rfl, rfl⟩, rfl, clearLatches_half s, rfl⟩
  exact Vector.getElem_replicate c.isLt

/-- Entry to LOST loses the roll and reports the reason and a line (R29). -/
theorem enterLost_spec (reason : LossReason) (line : LineNo) (s : State) (room : s.port.notices.length < 32) :
    RollLost (byteOf (lossNumber reason)) line s (enterLost reason line s) := by
  obtain ⟨left, tracker, latches, port⟩ := departure_spec { s.tracker with mode := .lost, lockCount := 0 } s _ rfl
  unfold enterLost
  dsimp only
  rw [State.raise_of_room _ _ _ (by rw [port]; exact room)]
  refine ⟨left, tracker, latches, ?_⟩
  obtain ⟨-, -, -, -, -, -, -, clock, -⟩ := left
  dsimp only
  rw [port, clock]

/-! ### The line timer (R15) -/

/-- The line timer's expiry in LOCKED: the timer stops and the roll is lost as SILENT (R15, R29). -/
theorem expireLineTimer_of_locked (s : State) (due : Time) (locked : s.tracker.mode = .locked)
    (running : s.scan.lineTimer = some due) (come : reached s.clock due) :
    expireLineTimer s = enterLost .silent s.tracker.lastLine (stopLineTimer s) := by
  have silent : reportSilent (stopLineTimer s) = enterLost .silent s.tracker.lastLine (stopLineTimer s) :=
    if_pos locked
  unfold expireLineTimer
  rw [running]
  exact (if_pos come).trans silent

/-- Settles O25: the expiry is the entry to LOST for SILENT from the state with the timer stopped. -/
theorem lineTimeoutLosesTheRoll : Obligations.LineTimeoutLosesTheRoll := by
  intro s a t due arrived locked running come room
  obtain ⟨left, tracker, latches, port⟩ := enterLost_spec .silent a.tracker.lastLine (stopLineTimer a) room
  obtain ⟨records, -, -, -, keys, pedals, scan, clock, settings, contexts, voicing, heat, hub, cue, loader, quiet, -⟩ :=
    left
  refine ⟨enterLost .silent a.tracker.lastLine (stopLineTimer a), ?_, scan, tracker, records, keys, pedals, latches,
    port, clock, settings, contexts, voicing, heat, hub, cue, loader, quiet⟩
  rw [← expireLineTimer_of_locked a due locked running come, ← arrived]
  rfl

end Sys2Proof.Machine
end

section
/-! The scan receiver: what becomes of a burst, of a segment and of the line it belongs to (01_scan_link R1 to
R15). -/

namespace Sys2Proof.Machine

/-! ### From a burst to a segment (R1 to R5, R13) -/

/-- The state with a lane's receive buffer emptied, as it stands when a burst on the lane is judged. -/
def emptyBuffer (lane : Fin 4) (s : State) : State :=
  s.setScan { s.scan with buffers := s.scan.buffers.set lane [] }

/-- A burst on a lane that takes segments is judged when it is 70 bytes and else discarded (R1). -/
theorem takeBurst_of_ready {lane : Fin 4} (bytes : List Byte) {a : State} (h : LaneReady a lane) :
    takeBurst lane bytes a =
      if bytes.length = 70 then checkSegment lane bytes (emptyBuffer lane a)
      else discardSegment (emptyBuffer lane a) := by
  obtain ⟨ready, listening, empty⟩ := h
  unfold takeBurst
  dsimp only
  rw [ready, listening, empty]
  rfl

theorem exec_segmentArrival {s a : State} {t : Time} (lane : Fin 4) (bytes : List Byte) (h : s.arrive t = a) :
    exec (.segmentArrival t lane.val bytes) s = .next (takeBurst lane bytes a) := by
  show Host.Outcome.next (takeBurstOn lane.val bytes (s.arrive t)) = _
  rw [takeBurstOn, dif_pos lane.isLt, h]

/-- A segment that passes the identity and the payload check goes into assembly (R4, R5). -/
theorem takeHeader_of_good {lane : Fin 4} {bytes : List Byte} {header : BitVec 24} (h : GoodSegment lane bytes header)
    (s : State) : takeHeader lane header bytes s = takeSegment lane (headerLine header) (burstPixels bytes) s := by
  obtain ⟨-, -, marker, id, crc⟩ := h
  have payload : ¬ (crc16 (segmentPayload bytes)).toNat ≠ valueOf (bytes.drop 68) := not_not.mpr crc
  unfold takeHeader
  rw [if_neg (by simp [marker, id]), if_neg payload]
  rfl

/-- A segment that fails the identity or the payload check is discarded (R4, R5). -/
theorem takeHeader_of_bad {lane : Fin 4} {bytes : List Byte} {header : BitVec 24} (s : State)
    (h : header.extractLsb' 18 6 ≠ 0b010110#6 ∨ (header.extractLsb' 16 2).toNat ≠ lane.val ∨
      (crc16 ((bytes.drop 4).take 64)).toNat ≠ valueOf (bytes.drop 68)) :
    takeHeader lane header bytes s = discardSegment s := by
  unfold takeHeader
  split
  · rfl
  · rename_i identity
    exact if_pos (by tauto)

/-- Behind the header check only the payload and its CRC count. -/
theorem takeHeader_congr (lane : Fin 4) (header : BitVec 24) {bytes bytes' : List Byte} (s : State)
    (h : bytes.drop 4 = bytes'.drop 4) : takeHeader lane header bytes s = takeHeader lane header bytes' s := by
  have tail : ∀ l : List Byte, l.drop 68 = (l.drop 4).drop 64 := fun l => by rw [List.drop_drop]
  unfold takeHeader segmentPayload
  rw [tail bytes, tail bytes', h]

/-- What becomes of a burst of 70 bytes with each outcome of the header check (R3, R13). -/
def takeOutcome (lane : Fin 4) (bytes : List Byte) (s : State) : HeaderOutcome → State
  | .clean header => takeHeader lane header bytes s
  | .corrected header => takeHeader lane header bytes (countCorrected s)
  | .uncorrectable => discardSegment s

theorem checkSegment_eq (lane : Fin 4) (bytes : List Byte) (s : State) : checkSegment lane bytes s =
    takeOutcome lane bytes s (checkHeader (segmentHeader bytes) (bytes.getD 3 0)) := by
  unfold checkSegment
  generalize checkHeader (segmentHeader bytes) (bytes.getD 3 0) = outcome
  cases outcome <;> rfl

/-- A good segment goes into assembly (R1 to R5). -/
theorem exec_goodSegment {s a : State} {t : Time} {lane : Fin 4} {bytes : List Byte} {header : BitVec 24}
    (ha : s.arrive t = a) (hr : LaneReady a lane) (hg : GoodSegment lane bytes header) :
    exec (.segmentArrival t lane.val bytes) s =
      .next (takeSegment lane (headerLine header) (burstPixels bytes) (emptyBuffer lane a)) := by
  obtain ⟨length, clean, -⟩ := id hg
  rw [exec_segmentArrival lane bytes ha, takeBurst_of_ready bytes hr, if_pos length, checkSegment_eq, clean,
    takeOutcome, takeHeader_of_good hg]

/-- Settles O22: the check that a burst fails discards it, and only a corrected header is counted before. -/
theorem badBurstsDiscarded : Obligations.BadBurstsDiscarded := by
  intro s a t lane bytes ha hr hbad
  rw [exec_segmentArrival lane bytes ha, takeBurst_of_ready bytes hr]
  by_cases length : bytes.length = 70
  · rw [if_pos length, checkSegment_eq]
    generalize checkHeader (segmentHeader bytes) (bytes.getD 3 0) = outcome at hbad ⊢
    cases outcome with
    | uncorrectable => exact ⟨0, by simp, by decide, rfl⟩
    | clean header =>
      rw [takeOutcome, takeHeader_of_bad _ (by simpa [length] using hbad)]
      exact ⟨0, by simp, by decide, rfl⟩
    | corrected header =>
      rw [takeOutcome, takeHeader_of_bad _ (by simpa [length] using hbad)]
      exact ⟨1, by simp [length], by decide, rfl⟩
  · rw [if_neg length]
    exact ⟨0, by simp [length], by decide, rfl⟩

/-! ### The order of line numbers (R6) -/

/-- The order read off the distance of two line numbers. -/
theorem compareLine_eq (n r : LineNo) : compareLine n r =
    if (n - r).toNat = 0 then .same else if (n - r).toNat ≤ 32767 then .ahead else .behind := by
  have same : n = r ↔ (n - r).toNat = 0 := by bv_omega
  simp only [compareLine, same]

theorem compareLine_same_iff (n r : LineNo) : compareLine n r = .same ↔ n = r := by
  unfold compareLine
  split
  · simp [*]
  · split <;> simp [*]

theorem compareLine_ahead_iff (n r : LineNo) :
    compareLine n r = .ahead ↔ 1 ≤ (n - r).toNat ∧ (n - r).toNat ≤ 32767 := by
  rw [compareLine_eq]
  generalize (n - r).toNat = distance
  split_ifs <;> simp <;> omega

theorem compareLine_behind_iff (n r : LineNo) : compareLine n r = .behind ↔ 32767 < (n - r).toNat := by
  rw [compareLine_eq]
  generalize (n - r).toNat = distance
  split_ifs <;> simp <;> omega

theorem missingCount_of_ahead {n r : LineNo} {missing : Nat} (low : 1 ≤ (n - r).toNat)
    (high : (n - r).toNat ≤ 32767) (count : missing + 1 = (n - r).toNat) : missingCount n (some r) = missing := by
  unfold missingCount
  simp only [(compareLine_ahead_iff n r).mpr ⟨low, high⟩]
  omega

/-- A line ahead of the reference line, or of none, is not stale (R8). -/
theorem staleInIdle_of_ahead {line : LineNo} {s : State}
    (h : ∀ r, s.scan.reference = some r → 1 ≤ (line - r).toNat ∧ (line - r).toNat ≤ 32767) :
    staleInIdle line s = false := by
  unfold staleInIdle
  split
  · rename_i r e
    simp [(compareLine_ahead_iff line r).mpr (h r e)]
  · rfl

theorem staleInIdle_of_not_ahead {line r : LineNo} {s : State} (hr : s.scan.reference = some r)
    (h : line = r ∨ 32767 < (line - r).toNat) : staleInIdle line s = true := by
  have other : compareLine line r ≠ .ahead := by
    rcases h with h | h
    · rw [(compareLine_same_iff line r).mpr h]; decide
    · rw [(compareLine_behind_iff line r).mpr h]; decide
  simp [staleInIdle, hr, other]

/-! ### What assembly does with a segment (R7 to R12) -/

section
variable {lane : Fin 4} {line : LineNo} {payload : LanePixels} {c : CurrentLine} (s : State)

theorem applicableLanes_idle (h : s.scan.current = none) : applicableLanes line s = laneEnable s := by
  simp [applicableLanes, h]

theorem applicableLanes_same (h : s.scan.current = some c) (e : c.number = line) :
    applicableLanes line s = c.required := by
  simp [applicableLanes, h, e]

theorem applicableLanes_other (h : s.scan.current = some c) (e : c.number ≠ line) :
    applicableLanes line s = laneEnable s := by
  simp [applicableLanes, h, e]

theorem takeSegment_outside (h : (applicableLanes line s).getLsbD lane.val = false) :
    takeSegment lane line payload s = discardSegment s := by
  unfold takeSegment
  rw [h]
  rfl

theorem takeSegment_idle (h : s.scan.current = none) (enabled : (laneEnable s).getLsbD lane.val = true)
    (fresh : ∀ r, s.scan.reference = some r → 1 ≤ (line - r).toNat ∧ (line - r).toNat ≤ 32767) :
    takeSegment lane line payload s = beginLine lane line payload s := by
  simp [takeSegment, applicableLanes_idle s h, enabled, h, staleInIdle_of_ahead fresh]

theorem takeSegment_stale {r : LineNo} (h : s.scan.current = none) (hr : s.scan.reference = some r)
    (stale : line = r ∨ 32767 < (line - r).toNat) : takeSegment lane line payload s = discardSegment s := by
  simp [takeSegment, h, staleInIdle_of_not_ahead hr stale]

theorem takeSegment_same (h : s.scan.current = some c) (e : c.number = line)
    (required : c.required.getLsbD lane.val = true) :
    takeSegment lane line payload s = fillLine lane payload c s := by
  have same : compareLine line c.number = .same := (compareLine_same_iff _ _).mpr e.symm
  simp [takeSegment, applicableLanes_same s h e, required, h, same]

theorem takeSegment_ahead (h : s.scan.current = some c) (low : 1 ≤ (line - c.number).toNat)
    (high : (line - c.number).toNat ≤ 32767) (enabled : (laneEnable s).getLsbD lane.val = true) :
    takeSegment lane line payload s = beginLine lane line payload (dropLine c s) := by
  have other : c.number ≠ line := by rintro rfl; simp at low
  have ahead : compareLine line c.number = .ahead := (compareLine_ahead_iff _ _).mpr ⟨low, high⟩
  simp [takeSegment, applicableLanes_other s h other, enabled, h, ahead]

theorem takeSegment_behind (h : s.scan.current = some c) (late : 32767 < (line - c.number).toNat) :
    takeSegment lane line payload s = discardSegment s := by
  have behind : compareLine line c.number = .behind := (compareLine_behind_iff _ _).mpr late
  simp [takeSegment, h, behind]

end

/-! ### Lines begun, filled and dropped (R8, R9, R11, R14) -/

theorem Scan.restart_eq (x : Scan) :
    x.restart = { x with restartMark := x.restartMark || x.restartPending, restartPending := false } := by
  cases h : x.restartPending with
  | true => simp [Scan.restart, h]
  | false =>
    have still : x.restart = x := by simp [Scan.restart, h]
    rw [still, Bool.or_false, ← h]

/-- The current line that a segment begins (R8). -/
def begunLine (lane : Fin 4) (line : LineNo) (payload : LanePixels) (s : State) : CurrentLine where
  number := line
  required := laneEnable s
  delivered := laneBit lane
  lanes := (Vector.replicate 4 (BitVec.allOnes 512)).set lane payload
  arrival := s.clock

/-- The current line with one more lane filled (R9). -/
def filledLine (lane : Fin 4) (payload : LanePixels) (c : CurrentLine) (s : State) : CurrentLine :=
  { c with delivered := c.delivered ||| laneBit lane, lanes := c.lanes.set lane payload, arrival := s.clock }

/-- A lane that LANE_ENABLE holds alone begins a line of that one lane. -/
theorem begunLine_alone (lane : Fin 4) (line : LineNo) (payload : LanePixels) {s : State}
    (alone : laneBit lane = laneEnable s) : begunLine lane line payload s =
      { number := line, required := laneBit lane, delivered := laneBit lane
        lanes := (Vector.replicate 4 (BitVec.allOnes 512)).set lane payload, arrival := s.clock } := by
  rw [begunLine, alone]

/-- With no restart pending a segment begins its line and changes nothing else first (R8, R14). -/
theorem beginLine_eq (lane : Fin 4) (line : LineNo) (payload : LanePixels) {s : State}
    (h : s.scan.restartPending = false) :
    beginLine lane line payload s = storeLine (begunLine lane line payload s) s := by
  have still : s.setScan s.scan.restart = s := by
    rw [Scan.restart, h]
    rfl
  unfold beginLine
  dsimp only
  rw [still]
  rfl

theorem fillLine_eq (lane : Fin 4) (payload : LanePixels) (c : CurrentLine) (s : State) :
    fillLine lane payload c s = storeLine (filledLine lane payload c s) s := rfl

/-- A line dropped: its record and count, and a pending restart in effect (R11, R14). -/
theorem dropLine_eq (c : CurrentLine) (s : State) : dropLine c s = s.setScan { s.scan with
    current := none
    linesDropped := min 65535 (s.scan.linesDropped + 1)
    lastSyncFail := some { number := c.number, required := c.required, delivered := c.delivered }
    restartMark := s.scan.restartMark || s.scan.restartPending
    restartPending := false } := by
  unfold dropLine
  rw [Scan.restart_eq]
  rfl

theorem storeLine_assembling {c : CurrentLine} (s : State) (h : c.delivered ≠ c.required) :
    storeLine c s = s.setScan { s.scan with current := some c } := if_neg h

theorem storeLine_complete {c : CurrentLine} (s : State) (h : c.delivered = c.required) :
    storeLine c s = completeLine c (s.setScan { s.scan with current := some c }) := if_pos h

/-- A line completed: handed to the tracker, and then the reference line, with no line current, a pending restart in
effect and the line timer set (R10, R14, R15). The tracker touches nothing of the scan receiver but the timer. -/
theorem completeLine_eq (c : CurrentLine) (s handed : State)
    (h : takeLine
      { number := c.number, lanes := c.lanes, time := c.arrival
        missing := missingCount c.number s.scan.reference, mark := s.scan.restartMark } s = handed) :
    completeLine c s = { handed with
      scan := { s.scan with
        reference := some c.number
        current := none
        restartMark := s.scan.restartPending
        restartPending := false
        lineTimer :=
          if handed.tracker.mode = .locked ∧ s.setting .lineTimeout ≠ 0
          then some (timePlus c.arrival (1000 * (s.setting .lineTimeout : Int))) else none } } := by
  have frame : RollFrame s handed := h ▸ RollFrame.takeLine _ s
  obtain ⟨timer, scan⟩ : ∃ timer, handed.scan = { s.scan with lineTimer := timer } := ⟨_, frame.scan⟩
  have setting : handed.setting .lineTimeout = s.setting .lineTimeout := congrArg (·.get .lineTimeout) frame.settings
  unfold completeLine
  dsimp only
  rw [h, Scan.restart_eq, scan]
  simp only [startLineTimer, State.setScan_tracker, State.setScan_setting, State.setScan_scan, setting,
    Bool.false_or]
  rfl

/-! ### Assembly, segment by segment -/

theorem laneBit_self (lane : Fin 4) : (laneBit lane).getLsbD lane.val = true := by
  revert lane
  decide

/-- A full line stored is handed over from a receiver `x`, and leaves what R10, R14 and R15 give. -/
theorem storeLine_handed (c : CurrentLine) (a b handed : State) (x : Scan) (missing : Nat)
    (hb : b.setScan { b.scan with current := some c } = { a with scan := { x with current := some c } })
    (full : c.delivered = c.required) (time : c.arrival = a.clock) (fresh : x.reference = none → missing = 0)
    (ahead : ∀ r, x.reference = some r → 1 ≤ (c.number - r).toNat ∧ (c.number - r).toNat ≤ 32767 ∧
      missing + 1 = (c.number - r).toNat)
    (h : takeLine { number := c.number, lanes := c.lanes, time := a.clock, missing := missing, mark := x.restartMark }
      { a with scan := { x with current := some c } } = handed) :
    storeLine c b = { handed with
      scan := { x with
        reference := some c.number
        current := none
        restartMark := x.restartPending
        restartPending := false
        lineTimer :=
          if handed.tracker.mode = .locked ∧ a.setting .lineTimeout ≠ 0
          then some (timePlus a.clock (1000 * (a.setting .lineTimeout : Int))) else none } } := by
  have count : missingCount c.number x.reference = missing := by
    cases e : x.reference with
    | none => exact (fresh e).symm
    | some r =>
      obtain ⟨low, high, behind⟩ := ahead r e
      exact missingCount_of_ahead low high behind
  rw [← time, ← count] at h
  rw [storeLine_complete _ full, hb, ← time]
  exact completeLine_eq c _ handed h

/-- Settles O21: each clause is one case of assembly, read off the lemma about that case. -/
theorem segmentsAssembleLines : Obligations.SegmentsAssembleLines := by
  refine ⟨fun s a t lane bytes header ha hr hg => ⟨?begins, ?fills⟩, ?completes, ?drops, ?discards, ?corrected⟩
  case begins =>
    intro idle still fresh enabled more
    rw [exec_goodSegment ha hr hg, takeSegment_idle (emptyBuffer lane a) idle enabled fresh,
      beginLine_eq lane _ _ (s := emptyBuffer lane a) still, storeLine_assembling _ more]
    rfl
  case fills =>
    intro c current same required more
    rw [exec_goodSegment ha hr hg, takeSegment_same (emptyBuffer lane a) current same required, fillLine_eq,
      storeLine_assembling _ more]
    rfl
  case completes =>
    intro s a handed t lane bytes header c missing x ha hr hg line fresh ahead taken
    obtain ⟨b, stored, receiver, full, time, reference⟩ : ∃ b,
        takeSegment lane (headerLine header) (burstPixels bytes) (emptyBuffer lane a) = storeLine c b ∧
          b.setScan { b.scan with current := some c } = { a with scan := { x with current := some c } } ∧
          c.delivered = c.required ∧ c.arrival = a.clock ∧ x.reference = a.scan.reference := by
      rcases line with ⟨alone, rfl, ⟨idle, still, rfl⟩ | ⟨c0, current, low, high, rfl⟩⟩ |
        ⟨c0, current, same, required, full, rfl, rfl⟩
      · have enabled : (laneEnable a).getLsbD lane.val = true := alone ▸ laneBit_self lane
        have fresh : ∀ r, a.scan.reference = some r →
            1 ≤ (headerLine header - r).toNat ∧ (headerLine header - r).toNat ≤ 32767 :=
          fun r hr => by obtain ⟨low, high, -⟩ := ahead r hr; exact ⟨low, high⟩
        refine ⟨emptyBuffer lane a, ?_, rfl, rfl, rfl, rfl⟩
        rw [takeSegment_idle (emptyBuffer lane a) idle enabled fresh,
          beginLine_eq lane _ _ (s := emptyBuffer lane a) still]
        exact congrArg (storeLine · _) (begunLine_alone lane _ _ alone)
      · have enabled : (laneEnable a).getLsbD lane.val = true := alone ▸ laneBit_self lane
        refine ⟨dropLine c0 (emptyBuffer lane a), ?_, ?_, rfl, rfl, rfl⟩
        · rw [takeSegment_ahead (emptyBuffer lane a) current low high enabled,
            beginLine_eq lane _ _ (by rw [dropLine_eq]; rfl)]
          exact congrArg (storeLine · _) (begunLine_alone lane _ _ alone)
        · rw [dropLine_eq]
          rfl
      · refine ⟨emptyBuffer lane a, ?_, rfl, rfl, rfl, rfl⟩
        rw [takeSegment_same (emptyBuffer lane a) current same required, fillLine_eq, filledLine, full]
        rfl
    rw [exec_goodSegment ha hr hg, stored]
    exact congrArg _ (storeLine_handed c a b handed x missing receiver full time (reference ▸ fresh)
      (reference ▸ ahead) taken)
  case drops =>
    intro s a t lane bytes header c ha hr hg current low high enabled more
    rw [exec_goodSegment ha hr hg, takeSegment_ahead (emptyBuffer lane a) current low high enabled, dropLine_eq,
      beginLine_eq lane _ _ rfl, storeLine_assembling _ more]
    rfl
  case discards =>
    intro s a t lane bytes header ha hr hg stale
    have discarded : takeSegment lane (headerLine header) (burstPixels bytes) (emptyBuffer lane a) =
        discardSegment (emptyBuffer lane a) := by
      rcases stale with ⟨idle, off⟩ | ⟨idle, r, reference, old⟩ |
        ⟨c, current, ⟨same, outside⟩ | ⟨other, off⟩ | late⟩
      · exact takeSegment_outside _ ((applicableLanes_idle (emptyBuffer lane a) idle).symm ▸ off)
      · exact takeSegment_stale _ idle reference old
      · exact takeSegment_outside _ ((applicableLanes_same (emptyBuffer lane a) current same).symm ▸ outside)
      · exact takeSegment_outside _ ((applicableLanes_other (emptyBuffer lane a) current other).symm ▸ off)
      · exact takeSegment_behind _ current late
    rw [exec_goodSegment ha hr hg, discarded]
    rfl
  case corrected =>
    intro s u a t lane bytes clean header ha hu hr length outcome hg rest
    rw [exec_segmentArrival lane bytes ha, takeBurst_of_ready bytes hr, if_pos length, checkSegment_eq, outcome,
      takeOutcome, takeHeader_congr lane header _ rest, takeHeader_of_good hg, exec_goodSegment hu hr hg]
    rfl

end Sys2Proof.Machine
end

section
/-! The execution of a request, from its command to the answer at its port (11_host_port R194, R195), and the
requests ROLL_START and ROLL_STOP (02_roll_tracking R33, R34). -/

namespace Sys2Proof.Machine

/-! ### From a command to its answer (R195) -/

/-- The request code table knows only byte codes and arguments that fit a frame. -/
theorem argumentsAllowed_bounds {code count : Nat} (h : argumentsAllowed code count = true) :
    code < 256 ∧ count ≤ 61 := by
  unfold argumentsAllowed at h
  split at h <;> simp at h <;> omega

section
variable {c : Instr} {s a : State} {t : Time} {code : Nat} {whileLoading : Bool}
  {act : List Byte → State → Answer} {tag : Byte} {arguments : List Byte}

/-- A command whose request stands at the head is what its request does to the state without that frame. -/
theorem exec_of_request (served : exec c s = .next (serveRequest code whileLoading act (s.arrive t)))
    (arrived : s.arrive t = a) (head : RequestAtHead a code tag arguments)
    (allowed : argumentsAllowed code arguments.length = true) :
    exec c s = .next ((act arguments a.dropHead).state.respond (byteOf code) tag
      (act arguments a.dropHead).result (act arguments a.dropHead).data) := by
  obtain ⟨byte, fits⟩ := argumentsAllowed_bounds allowed
  rw [served, arrived, serveRequest_of_head a code whileLoading act tag arguments head byte fits allowed]

/-- A command whose request leaves the state alone changes the port and nothing else. -/
theorem exec_of_answer {result : Result} {data : List Byte}
    (served : exec c s = .next (serveRequest code whileLoading act (s.arrive t)))
    (arrived : s.arrive t = a) (head : RequestAtHead a code tag arguments)
    (allowed : argumentsAllowed code arguments.length = true)
    (answer : act arguments a.dropHead = { state := a.dropHead, result := result, data := data }) :
    exec c s = .next { a with port := answeredPort a.port code tag result data } := by
  rw [exec_of_request served arrived head allowed, answer, respond_dropHead]

end

/-- The port of a state that took its port from a state without its head frame, once it has answered. -/
theorem respond_port {s s' : State} (h : s'.port = s.dropHead.port) (code : Nat) (tag : Byte) (result : Result)
    (data : List Byte) :
    (s'.respond (byteOf code) tag result data).port = answeredPort s.port code tag result data := by
  rw [State.respond, h]
  rfl

/-! ### ROLL_START (R33) -/

/-- Settles O26: the two branches of R33 on the state without the request's frame. -/
theorem rollStartCompletes : Obligations.RollStartCompletes := by
  intro s a t tag arrived head
  refine ⟨fun stopped => ?taken, fun running => ?refused⟩
  case taken =>
    have started : actRollStart [] a.dropHead = answerOk (startRoll a.dropHead) [] := if_pos stopped
    rw [exec_of_request rfl arrived head rfl, started]
    rfl
  case refused => exact exec_of_answer rfl arrived head rfl (if_neg running)

/-! ### ROLL_STOP (R34) -/

theorem stopRoll_of_stopped {s : State} (h : s.tracker.mode = .stopped) : stopRoll s = s := by
  rw [stopRoll, h]

theorem stopRoll_of_searching {s : State} (h : s.tracker.mode = .seeking ∨ s.tracker.mode = .lost) :
    stopRoll s = s.setTracker s.tracker.stop := by
  rcases h with h | h <;> rw [stopRoll, h]

theorem stopRoll_of_locked {s : State} (h : s.tracker.mode = .locked) : stopRoll s = stopFromLocked s := by
  rw [stopRoll, h]

/-- A stop from LOCKED is a departure to the stopped tracker (R31). -/
theorem stopFromLocked_spec (s : State) :
    RollLeft s (stopFromLocked s) ∧ (stopFromLocked s).tracker = s.tracker.stop ∧
      (∀ h : Half, (stopFromLocked s).half h = { s.half h with latch := none }) ∧
      (stopFromLocked s).port = s.port :=
  departure_spec s.tracker.stop s _ rfl

theorem stopRoll_port (s : State) : (stopRoll s).port = s.port := by
  unfold stopRoll
  split
  · rfl
  · rfl
  · rfl
  · obtain ⟨-, -, -, port⟩ := stopFromLocked_spec s
    exact port

theorem stopRoll_mode (s : State) : (stopRoll s).tracker.mode = .stopped := by
  unfold stopRoll
  split
  · assumption
  · rfl
  · rfl
  · obtain ⟨-, tracker, -⟩ := stopFromLocked_spec s
    rw [tracker]
    rfl

/-- Settles O27: the effect of R34 in each tracker state, answered. -/
theorem rollStopCompletes : Obligations.RollStopCompletes := by
  intro s a t tag arrived head
  have taken : exec (.rollStop t) s = .next ((stopRoll a.dropHead).respond (byteOf 0x09) tag .ok []) :=
    exec_of_request (act := actRollStop) rfl arrived head rfl
  refine ⟨_, taken, respond_port (stopRoll_port a.dropHead) _ _ _ _,
    stopRoll_mode a.dropHead, fun stopped => ?stopped, fun searching => ?searching, fun locked => ?locked⟩
  case stopped =>
    rw [stopRoll_of_stopped (s := a.dropHead) stopped]
    rfl
  case searching =>
    rw [stopRoll_of_searching (s := a.dropHead) searching]
    rfl
  case locked =>
    rw [stopRoll_of_locked (s := a.dropHead) locked]
    obtain ⟨⟨records, -, -, -, keys, pedals, scan, -, settings, contexts, -, heat, -, cue, -⟩, tracker, latches, -⟩ :=
      stopFromLocked_spec a.dropHead
    exact ⟨tracker, scan, records, keys, pedals, latches, settings, contexts, heat, cue⟩

end Sys2Proof.Machine
end

section
/-! What STATUS and the queries answer (02_roll_tracking R35, 03_the_aperture_table R54, 04_expression R77,
05_the_key_table R105, 09_pedals R175, 10_source_contexts R189, 11_host_port R198). -/

namespace Sys2Proof.Machine

/-! ### Enumerations as bytes (log 13) -/

theorem byteOf_outcomeNumber (o : ImageOutcome) : byteOf (outcomeNumber o) =
    match o with | .loaded => 0 | .absent => 1 | .invalid => 2 := by cases o <;> rfl

theorem byteOf_commitNumber (o : CommitOutcome) : byteOf (commitNumber o) =
    match o with | .none => 0 | .done => 1 | .failed => 2 := by cases o <;> rfl

theorem byteOf_trackerNumber (m : TrackerMode) : byteOf (trackerNumber m) =
    match m with | .stopped => 0 | .seeking => 1 | .locked => 2 | .lost => 3 := by cases m <;> rfl

theorem byteOf_modeNumber (m : ExprMode) : byteOf (modeNumber m) =
    match m with | .roll => 0 | .fixed => 1 | .offset => 2 := by cases m <;> rfl

theorem byteOf_crescendoNumber (c : Crescendo) : byteOf (crescendoNumber c) =
    match c with | .none => 0 | .slow => 1 | .fast => 2 | .both => 3 := by cases c <;> rfl

theorem byteOf_launchNumber (m : LaunchMode) : byteOf (launchNumber m) =
    match m with | .normal => 0 | .muted => 1 | .cool => 2 := by cases m <;> rfl

theorem byteOf_reasonNumber (r : RetireReason) : byteOf (reasonNumber r) =
    match r with | .host => 0 | .noHammer => 1 | .fault => 2 := by cases r <;> rfl

theorem byteOf_pedalModeNumber (m : PedalMode) : byteOf (pedalModeNumber m) =
    match m with | .idle => 0 | .moving _ => 1 | .holding => 2 | .fault => 3 := by cases m <;> rfl

theorem moveStartOf_map_fieldTime (m : PedalMode) : (moveStartOf m).map fieldTime =
    match m with | .moving start => some (fieldTime start) | _ => none := by cases m <;> rfl

theorem fieldMapping_eq (m : Mapping) : fieldMapping m =
    [match m with | .key k => byteOf (keyNumber k) | .disabled => 0xF0 | .outOfRange => 0xF1] := by cases m <;> rfl

/-! ### STATUS (R198) -/

/-- STATUS is executed in every load state (R200). -/
theorem exec_status {s a : State} {t : Time} {tag : Byte} (pin : Bool) (arrived : s.arrive t = a)
    (room : a.port.responses.length < 16) (head : a.port.intake.head? = some (requestFrame 0x01 tag [])) :
    exec (.status t pin) s = .next { a with
      servicePin := pin
      port := answeredPort a.port 0x01 tag .ok (statusData ({ a with servicePin := pin } : State).dropHead) } := by
  have good : frameGood (requestFrame 0x01 tag []) = true :=
    frameGood_requestFrame 0x01 tag [] (by decide) (by decide) rfl
  have code : (frameCode (requestFrame 0x01 tag [])).toNat = 0x01 := rfl
  show Host.Outcome.next (serveRequest 0x01 true (actStatus pin) (s.arrive t)) = _
  simp only [arrived, serveRequest, headFrame, if_pos room, head, good, code, or_true, and_self, if_true]
  rfl

/-! ### The argument of a query -/

theorem argByte_byteOf {n : Nat} (h : n < 256) : argByte [byteOf n] 0 = n := byteOf_toNat n h

theorem actApertureQuery_of_channel (c : Channel) (s : State) :
    actApertureQuery [byteOf c.val] s = answerOk s (apertureData s.apertures.records[c]) := by
  rw [actApertureQuery, argByte_byteOf (by omega), channelOfNumber, dif_pos c.isLt]

theorem actApertureQuery_of_other {n : Nat} (low : 101 < n) (high : n < 256) (s : State) :
    actApertureQuery [byteOf n] s = refuse s .badArgument := by
  rw [actApertureQuery, argByte_byteOf high, channelOfNumber, dif_neg (by omega)]

theorem actKeyQuery_of_key (k : Key) (s : State) :
    actKeyQuery [byteOf (keyNumber k)] s = answerOk s (keyData s k) := by
  rw [actKeyQuery, argByte_byteOf (by unfold keyNumber; omega), keyOfNumber_keyNumber]

theorem actKeyQuery_of_other {n : Nat} (out : n = 0 ∨ 88 < n) (high : n < 256) (s : State) :
    actKeyQuery [byteOf n] s = refuse s .badArgument := by
  rw [actKeyQuery, argByte_byteOf high, keyOfNumber_none n out]

theorem actExprQuery_of_half (h : Half) (s : State) : actExprQuery [match h with | .bass => 0 | .treble => 1] s =
    answerOk s (expressionData (s.half h) (s.output h)) := by cases h <;> rfl

theorem actExprQuery_of_other {n : Nat} (low : 2 ≤ n) (high : n < 256) (s : State) :
    actExprQuery [byteOf n] s = refuse s .badArgument := by
  obtain ⟨m, rfl⟩ := Nat.exists_eq_add_of_le' low
  rw [actExprQuery, argByte_byteOf high]
  rfl

theorem actPedalQuery_of_pedal (p : Pedal) (s : State) :
    actPedalQuery [byteOf (pedalNumber p)] s = answerOk s (pedalData p (s.pedal p)) := by cases p <;> rfl

theorem actPedalQuery_of_other {n : Nat} (low : 2 ≤ n) (high : n < 256) (s : State) :
    actPedalQuery [byteOf n] s = refuse s .badArgument := by
  obtain ⟨m, rfl⟩ := Nat.exists_eq_add_of_le' low
  rw [actPedalQuery, argByte_byteOf high]
  rfl

/-! ### The data of an answer -/

/-- The bytes of an aperture record in the order of R37, an absent field with its presence byte and its width of
zeros. -/
theorem apertureData_eq (r : Aperture) (data : List Byte) (mapping : Option Mapping → List Byte)
    (mapped : ∀ m, mapping m = fieldOptional 1 (m.map fieldMapping))
    (empty : r.life = .empty → data = [0] ++ fieldBool r.blind ++ List.replicate 22 0)
    (tentative : ∀ l t seen, r.life = .tentative l t seen →
      data = [1] ++ fieldBool r.blind ++ [1] ++ fieldLine l ++ [1] ++ fieldTime t ++ [1, byteOf seen] ++
        List.replicate 12 0)
    (opened : ∀ l t m, r.life = .opened l t m →
      data = [2] ++ fieldBool r.blind ++ [1] ++ fieldLine l ++ [1] ++ fieldTime t ++ [0, 0] ++ mapping m ++
        List.replicate 10 0)
    (bridging : ∀ l t m lc tc absent, r.life = .bridging l t m lc tc absent →
      data = [3] ++ fieldBool r.blind ++ [1] ++ fieldLine l ++ [1] ++ fieldTime t ++ [0, 0] ++ mapping m ++ [1] ++
        fieldLine lc ++ [1] ++ fieldTime tc ++ [1, byteOf absent]) : apertureData r = data := by
  unfold apertureData
  cases life : r.life with
  | empty => rw [empty life]; rfl
  | tentative l t seen => rw [tentative l t seen life]; rfl
  | opened l t m =>
    rw [opened l t m life, mapped]
    simp only [lifeFields, lifeFields.lifeBytes, List.append_assoc]
    rfl
  | bridging l t m lc tc absent =>
    rw [bridging l t m lc tc absent life, mapped]
    simp only [lifeFields, lifeFields.lifeBytes, List.append_assoc]
    rfl

/-- Settles O57: each answer's data by its owning rule, and the numbers that name nothing refused. -/
theorem queriesComplete : Obligations.QueriesComplete := by
  intro s a t tag arrived
  refine ⟨fun pin room head => ?status, fun head => ?roll,
    fun c data mapping mapped empty tentative opened bridging head => ?aperture, fun h head => ?expression,
    fun k note noted head => ?key, fun p head => ?pedal, fun head => ?cue, fun n low high head => ?channel,
    fun n low high => ⟨fun head => ?half, fun head => ?pedalNumber⟩, fun n out high head => ?keyNumber⟩
  case status =>
    rw [exec_status pin arrived room head]
    simp only [statusData, fieldCommit, byteOf_outcomeNumber, byteOf_commitNumber, List.append_assoc,
      State.dropHead_port, List.length_tail]
    rfl
  case roll =>
    rw [exec_of_answer (act := actRollQuery) rfl arrived head rfl rfl]
    simp only [rollData, byteOf_trackerNumber]
    rfl
  case aperture =>
    have bytesMapped : ∀ m, mapping m = fieldOptional 1 (m.map fieldMapping) := fun m =>
      (mapped m).trans (congrArg (fun f => fieldOptional 1 (m.map f)) (funext fieldMapping_eq).symm)
    have bytes : apertureData a.apertures.records[c] = data :=
      apertureData_eq _ data mapping bytesMapped empty tentative opened bridging
    exact exec_of_answer rfl arrived head rfl (bytes ▸ actApertureQuery_of_channel c a.dropHead)
  case expression =>
    rw [exec_of_answer rfl arrived head rfl (actExprQuery_of_half h a.dropHead)]
    simp only [expressionData, byteOf_modeNumber, byteOf_crescendoNumber]
    rfl
  case key =>
    have same : note = noteBytes := by
      funext n v l
      rw [noted, noteBytes]
      simp only [byteOf_launchNumber] <;> rfl
    rw [exec_of_answer rfl arrived head rfl (actKeyQuery_of_key k a.dropHead)]
    simp only [keyData, same, byteOf_reasonNumber]
    rfl
  case pedal =>
    rw [exec_of_answer rfl arrived head rfl (actPedalQuery_of_pedal p a.dropHead)]
    simp only [pedalData, byteOf_pedalModeNumber, fieldList, moveStartOf_map_fieldTime, List.length_map,
      List.flatMap_def, List.append_assoc]
    rfl
  case cue => exact exec_of_answer (act := actCueQuery) rfl arrived head rfl rfl
  case channel => exact exec_of_answer rfl arrived head rfl (actApertureQuery_of_other low high _)
  case half => exact exec_of_answer rfl arrived head rfl (actExprQuery_of_other low high _)
  case pedalNumber => exact exec_of_answer rfl arrived head rfl (actPedalQuery_of_other low high _)
  case keyNumber => exact exec_of_answer rfl arrived head rfl (actKeyQuery_of_other out high _)

end Sys2Proof.Machine
end

section
/-! A line taken by the roll tracker: its restart mark, its edges, and SEEKING and LOST (02_roll_tracking R17 to
R25). -/

namespace Sys2Proof.Machine

/-! ### Centre and width (R21) -/

/-- One eighth of the way toward a measurement never passes below 0. -/
theorem smoothed_cast (old measured : Nat) :
    (smoothed old measured : Int) = old + ((measured : Int) - old).tdiv 8 := by
  have sign : Int.sign 8 = 1 := rfl
  rw [smoothed, Int.toNat_of_nonneg]
  rw [Int.tdiv_eq_ediv]
  split <;> omega

theorem Tracker.measure_unseeded {t : Tracker} (h : t.seeded = false) (left right : Nat) :
    (t.measure left right).centre = 8 * (left + right) ∧
      (t.measure left right).width = 16 * (right + 1 - left) := by
  simp [Tracker.measure, Tracker.regeometry, h]

theorem Tracker.measure_seeded {t : Tracker} (h : t.seeded = true) (left right : Nat) :
    ((t.measure left right).centre : Int) =
        t.centre + (((8 * (left + right) : Nat) : Int) - t.centre).tdiv 8 ∧
      ((t.measure left right).width : Int) =
        t.width + (((16 * (right + 1 - left) : Nat) : Int) - t.width).tdiv 8 := by
  rw [← smoothed_cast, ← smoothed_cast]
  simp [Tracker.measure, Tracker.regeometry, h]

/-! ### The edges of a line (R24, R26) -/

section
variable {t : Tracker} {ln : CompletedLine}

theorem Tracker.seek_of_valid {left right : Nat} (h : validEdges t.working ln.lanes = some (left, right)) :
    t.seek ln = { t.measure left right with lockCount := (if 3 < ln.missing then 0 else t.lockCount) + 1 } := by
  simp [Tracker.seek, h]

/-- What a line with valid edges makes of the estimates and the lock count (R21, R24). -/
theorem Tracker.seek_spec {t' : Tracker} {left right count : Nat}
    (edges : validEdges t.working ln.lanes = some (left, right))
    (counted : count = (if 3 < ln.missing then 0 else t.lockCount) + 1) (sought : t.seek ln = t') :
    t'.lockCount = count ∧ t'.seeded = true ∧ t'.lastLine = t.lastLine ∧ t'.mode = t.mode ∧
      (t.seeded = false → t'.centre = 8 * (left + right) ∧ t'.width = 16 * (right + 1 - left)) ∧
      (t.seeded = true →
        (t'.centre : Int) = t.centre + (((8 * (left + right) : Nat) : Int) - t.centre).tdiv 8 ∧
          (t'.width : Int) = t.width + (((16 * (right + 1 - left) : Nat) : Int) - t.width).tdiv 8) ∧
      t'.geometry = geometryOf t'.centre t'.width t.working.spanRatio := by
  rw [Tracker.seek_of_valid edges] at sought
  subst sought
  exact ⟨counted.symm, rfl, rfl, rfl, fun h => Tracker.measure_unseeded h left right,
    fun h => Tracker.measure_seeded h left right, rfl⟩

theorem Tracker.seek_of_invalid (h : validEdges t.working ln.lanes = none) :
    t.seek ln = { t with lockCount := 0 } := by
  simp [Tracker.seek, h]

end

/-! ### Which step takes a line (R17) -/

section
variable {ln : CompletedLine} {s : State}

theorem takeLine_of_stopped (stopped : s.tracker.mode = .stopped) (unmarked : ln.mark = false) :
    takeLine ln s = s := by
  simp [takeLine, unmarked, stopped]

theorem takeLine_of_searching (searching : s.tracker.mode = .seeking ∨ s.tracker.mode = .lost)
    (unmarked : ln.mark = false) : takeLine ln s = seekLine ln (noteLine ln s) := by
  rcases searching with mode | mode <;> simp [takeLine, unmarked, mode]

theorem takeLine_of_locked (locked : s.tracker.mode = .locked) (unmarked : ln.mark = false) :
    takeLine ln s = lockedLine ln (noteLine ln s) := by
  simp [takeLine, unmarked, locked]

end

/-! ### The restart mark (R18) -/

theorem applyRestartMark_eq (s : State) : applyRestartMark s = s.setTracker { s.tracker with
    working := workingGeometryOf s.settings
    geometry := if s.tracker.mode = .locked
      then geometryOf s.tracker.centre s.tracker.width (s.setting .spanRatio) else s.tracker.geometry } := by
  by_cases locked : s.tracker.mode = .locked
  · rw [if_pos locked]
    exact if_pos locked
  · rw [if_neg locked]
    exact if_neg locked

/-- No step but the first looks at the restart mark. -/
theorem sendHeldLines_unmarked (ln : CompletedLine) (left : Nat) (s : State) :
    sendHeldLines { ln with mark := false } left s = sendHeldLines ln left s := by
  induction left generalizing s with
  | zero => rfl
  | succ left ih => exact ih _

theorem lockedLine_unmarked (ln : CompletedLine) (s : State) :
    lockedLine { ln with mark := false } s = lockedLine ln s := by
  unfold lockedLine
  rw [sendHeldLines_unmarked]
  rfl

/-- A marked line is taken as any other once its mark has been applied (R18). -/
theorem takeLine_of_marked {ln : CompletedLine} (marked : ln.mark = true) (s : State) :
    takeLine ln s = takeLine { ln with mark := false } (applyRestartMark s) := by
  unfold takeLine
  dsimp only
  rw [if_pos marked, if_neg Bool.false_ne_true, lockedLine_unmarked ln]
  rfl

/-! ### A line in SEEKING or LOST (R24, R25) -/

theorem lockMark_record (states : Vector Bool 102) (s : State) (c : Channel) :
    (lockMark states s).apertures.records[c] = { s.apertures.records[c] with blind := states[c] } := by
  rw [lockMark, mapTable_get]

/-- Entry to LOCKED: the tracker, the blind markings and the notice (R25, R52). -/
theorem enterLocked_eq (ln : CompletedLine) {s : State} (room : s.port.notices.length < 32) :
    enterLocked ln s = { s with
      tracker := { s.tracker with
        mode := .locked, edgeFailures := 0, endMarks := 0
        lastStates := channelStates s.tracker.geometry ln.lanes }
      apertures := (lockMark (channelStates s.tracker.geometry ln.lanes) s).apertures
      port := { s.port with notices := s.port.notices ++
        [{ kind := .trackLocked, lost := false, time := s.clock
           fields := fieldLine ln.number ++ fieldBool (decide (s.tracker.mode = .lost)) }] } } :=
  State.raise_of_room _ _ _ room

/-- A line in SEEKING or LOST, and the entry to LOCKED where the lock count suffices (R24, R25). -/
theorem seekLine_eq {ln : CompletedLine} {s : State} {t : Tracker} (sought : s.tracker.seek ln = t) :
    seekLine ln s =
      if s.setting .lockLines ≤ t.lockCount then enterLocked ln (s.setTracker t) else s.setTracker t := by
  subst sought
  rfl

/-- Settles O24: the tracker that R24 leaves, and the step of R25 where its lock count reaches LOCK_LINES. -/
theorem seekingLinesCountTowardLock : Obligations.SeekingLinesCountTowardLock := by
  refine ⟨?valid, ?invalid, fun s ln stopped unmarked => takeLine_of_stopped stopped unmarked, ?marked⟩
  case valid =>
    intro s s' ln left right count searching unmarked room edges counted taken
    obtain ⟨t, sought⟩ : ∃ t, (noteLine ln s).tracker.seek ln = t := ⟨_, rfl⟩
    rw [takeLine_of_searching searching unmarked, seekLine_eq sought] at taken
    have noted : (noteLine ln s).tracker.lastLine = ln.number := rfl
    obtain ⟨lockCount, seed, last, mode, unseeded, seeded, geometry⟩ :=
      Tracker.seek_spec (t := (noteLine ln s).tracker) edges counted sought
    rw [lockCount] at taken
    by_cases enough : s.setting .lockLines ≤ count
    · have locked : enterLocked ln ((noteLine ln s).setTracker t) = s' := (if_pos enough).symm.trans taken
      rw [enterLocked_eq ln (s := (noteLine ln s).setTracker t) room] at locked
      subst locked
      refine ⟨lockCount, seed, last.trans noted, unseeded, seeded, geometry,
        fun few => absurd enough (by omega), fun _ => ⟨rfl, rfl, rfl, rfl, lockMark_record _ _, ?_⟩, rfl, rfl, rfl, rfl⟩
      simp only [State.setTracker_tracker, mode, fieldBool, decide_eq_true_eq]
      rfl
    · have counting : (noteLine ln s).setTracker t = s' := (if_neg enough).symm.trans taken
      subst counting
      exact ⟨lockCount, seed, last.trans noted, unseeded, seeded, geometry, fun _ => ⟨mode, rfl, rfl⟩,
        fun h => absurd h enough, rfl, rfl, rfl, rfl⟩
  case invalid =>
    intro s ln searching unmarked edges positive
    rw [takeLine_of_searching searching unmarked, seekLine,
      Tracker.seek_of_invalid (t := (noteLine ln s).tracker) (ln := ln) edges]
    exact if_neg (Nat.not_le.mpr positive)
  case marked =>
    intro s ln marked
    rw [takeLine_of_marked marked, applyRestartMark_eq]
    rfl

end Sys2Proof.Machine
end

section
/-! A sampled line: what its events touch, and the transitions of its aperture records (03_the_aperture_table R38 to
R51). -/

namespace Sys2Proof.Machine

/-! ### What the events of a line touch (R44 to R51) -/

/-- An event sent on changes the keys and their queue, the half contexts, the pedals and NOTES_MASKED alone. -/
def EventUpdate (s s' : State) : Prop :=
  ∃ masked expression keys queue pedals, s' = { s with
    apertures := { s.apertures with notesMasked := masked }
    expression := expression
    keys := keys
    queue := queue
    pedals := pedals }

namespace EventUpdate

theorem refl (s : State) : EventUpdate s s := ⟨_, _, _, _, _, rfl⟩

theorem trans {s s' s'' : State} (h : EventUpdate s s') (h' : EventUpdate s' s'') : EventUpdate s s'' := by
  obtain ⟨m, e, k, q, p, rfl⟩ := h
  obtain ⟨m', e', k', q', p', rfl⟩ := h'
  exact ⟨m', e', k', q', p', rfl⟩

theorem tracker {s s' : State} (h : EventUpdate s s') : s'.tracker = s.tracker := by
  obtain ⟨m, e, k, q, p, rfl⟩ := h
  rfl

theorem records {s s' : State} (h : EventUpdate s s') : s'.apertures.records = s.apertures.records := by
  obtain ⟨m, e, k, q, p, rfl⟩ := h
  rfl

theorem setHalf (h : Half) (c : HalfContext) (s : State) : EventUpdate s (s.setHalf h c) := by
  cases h <;> exact ⟨_, _, _, _, _, rfl⟩

theorem setPedal (p : Pedal) (r : PedalRecord) (s : State) : EventUpdate s (s.setPedal p r) := by
  cases p <;> exact ⟨_, _, _, _, _, rfl⟩

theorem settling {f : State → State} {s : State} (placed : Option Key) (h : EventUpdate s (f s)) :
    EventUpdate s (settling placed f s) := by
  obtain ⟨keys, queue, e, -, -⟩ := settling_frame placed f s
  rw [e]
  exact h.trans ⟨_, _, keys, queue, _, rfl⟩

theorem levelNote (c : Claim) (s : State) : EventUpdate s (levelNote c s).1 := by
  unfold Machine.levelNote
  cases c.level with
  | roll onset accent => exact setHalf _ _ s
  | given level => exact refl s
  | follow => exact refl s

theorem takeClaim (c : Claim) (s : State) : EventUpdate s (takeClaim c s) := by
  obtain ⟨m, e, k, q, p, leveled⟩ := levelNote c s
  unfold Machine.takeClaim
  split
  rename_i s1 n answer
  rw [answer] at leveled
  subst leveled
  split <;> exact ⟨_, _, _, _, _, rfl⟩

theorem claim (c : Claim) (s : State) : EventUpdate s (claim c s).1 := by
  rcases claim_spec c s with ⟨-, e⟩ | ⟨-, -, e⟩ | ⟨-, -, -, e⟩ | ⟨-, -, -, e⟩ <;> rw [e]
  · exact refl s
  · exact refl s
  · exact refl s
  · exact settling _ (takeClaim c s)

theorem closeKey (o : Owner) (release : Time) (k : Key) (s : State) : EventUpdate s (closeKey o release k s) := by
  rcases closeKey_spec o release k s with e | ⟨-, p, e⟩ <;> rw [e] <;> exact ⟨_, _, _, _, _, rfl⟩

theorem rollPedalEvent (p : Pedal) (time : Time) (target : Nat) (s : State) :
    EventUpdate s (rollPedalEvent p time target s) := by
  unfold Machine.rollPedalEvent
  dsimp only
  split
  · exact (setPedal p _ s).trans (setPedal p _ _)
  · exact refl s

theorem rollNoteOpen (c : Channel) (k : Key) (onsetLine : LineNo) (onsetTime : Time) (s : State) :
    EventUpdate s (rollNoteOpen c k onsetLine onsetTime s) := by
  unfold Machine.rollNoteOpen
  dsimp only
  split
  · exact claim _ s
  · exact (claim _ s).trans ⟨_, _, _, _, _, rfl⟩

theorem sendControl (c : Channel) (e : ApertureEvent) (s : State) : EventUpdate s (sendControl c e s) := by
  unfold Machine.sendControl
  split
  · exact setHalf _ _ s
  · exact setHalf _ _ s
  · exact refl s

theorem sendNoteClose (c : Channel) (e : ApertureEvent) (s : State) : EventUpdate s (sendNoteClose c e s) := by
  unfold Machine.sendNoteClose
  split
  · exact settling _ (closeKey _ _ _ s)
  · exact refl s

theorem sendNoteOpen (c : Channel) (e : ApertureEvent) (s : State) : EventUpdate s (sendNoteOpen c e s) := by
  unfold Machine.sendNoteOpen
  split
  · exact rollNoteOpen _ _ _ _ s
  · exact refl s

theorem sendPedal (c : Channel) (e : ApertureEvent) (s : State) : EventUpdate s (sendPedal c e s) := by
  unfold Machine.sendPedal
  split
  · exact rollPedalEvent _ _ _ s
  · exact rollPedalEvent _ _ _ s
  · exact refl s

theorem sendGroup {send : Channel → ApertureEvent → State → State} (h : ∀ c e s, EventUpdate s (send c e s))
    (events : List (Channel × ApertureEvent)) (s : State) : EventUpdate s (sendGroup send events s) := by
  unfold Machine.sendGroup
  induction events generalizing s with
  | nil => exact refl s
  | cons e events ih => exact (h e.1 e.2 s).trans (ih _)

theorem sendEvents (events : List (Channel × ApertureEvent)) (s : State) : EventUpdate s (sendEvents events s) :=
  (((sendGroup sendControl _ _).trans (sendGroup sendNoteClose _ _)).trans (sendGroup sendNoteOpen _ _)).trans
    (sendGroup sendPedal _ _)

end EventUpdate

/-! ### The records after a sampled line (R38) -/

theorem countEvent_records (a : ApertureTable) (e : ApertureEvent) : (countEvent a e).records = a.records := by
  unfold countEvent
  split <;> rfl

theorem countEvents_records (events : List (Channel × ApertureEvent)) (a : ApertureTable) :
    (events.foldl (fun a e => countEvent a e.2) a).records = a.records := by
  induction events generalizing a with
  | nil => rfl
  | cons e events ih => rw [List.foldl_cons, ih, countEvent_records]

/-- Each record makes its transition; the events only count and reach the other blocks (R38). -/
theorem takeSampledLine_record (line : LineNo) (time : Time) (states : Vector Bool 102) (s : State) (c : Channel) :
    (takeSampledLine line time states s).apertures.records[c] =
      (lineTransition (s.setting .confirmLines) (s.setting .bridgeLines) (confirmMapping s c) line time states[c]
        s.apertures.records[c]).1 := by
  rw [takeSampledLine]
  dsimp only
  rw [(EventUpdate.sendEvents _ _).records]
  dsimp only
  rw [countEvents_records, lineResults, List.foldl_map]
  exact mapTable_get (fun c _ => (lineTransition (s.setting .confirmLines) (s.setting .bridgeLines)
    (confirmMapping s c) line time states[c] s.apertures.records[c]).1) s.apertures.records c

theorem takeSampledLine_tracker (line : LineNo) (time : Time) (states : Vector Bool 102) (s : State) :
    (takeSampledLine line time states s).tracker = s.tracker := by
  rw [takeSampledLine]
  exact (EventUpdate.sendEvents _ _).tracker

/-! ### The transitions of a record (R39 to R43) -/

section
variable {confirmLines bridgeLines : Nat} {mapping m : Option Mapping} {line l0 : LineNo} {time t0 : Time}
  {isOpen : Bool} {r : Aperture}

theorem seenAperture_of_few {seen : Nat} (few : seen < confirmLines) :
    (seenAperture confirmLines mapping line time seen).1 = { blind := false, life := .tentative line time seen } := by
  rw [seenAperture, if_neg (Nat.not_le.mpr few)]

theorem seenAperture_of_enough {seen : Nat} (enough : confirmLines ≤ seen) :
    (seenAperture confirmLines mapping line time seen).1 = { blind := false, life := .opened line time mapping } := by
  rw [seenAperture, if_pos enough]

theorem absentAperture_of_few {lc : LineNo} {tc : Time} {absent : Nat} (few : absent ≤ bridgeLines) :
    (absentAperture bridgeLines l0 t0 m lc tc absent).1 =
      { blind := false, life := .bridging l0 t0 m lc tc absent } := by
  rw [absentAperture, if_neg (Nat.not_lt.mpr few)]

theorem absentAperture_of_many {lc : LineNo} {tc : Time} {absent : Nat} (many : bridgeLines < absent) :
    (absentAperture bridgeLines l0 t0 m lc tc absent).1 = { blind := false, life := .empty } := by
  rw [absentAperture, if_pos many]
  rfl

/-- The blind marking follows the channel until it closes (R39). -/
theorem lineTransition_blind (empty : r.life = .empty) (blind : r.blind = true) :
    (lineTransition confirmLines bridgeLines mapping line time isOpen r).1 = { blind := isOpen, life := .empty } := by
  simp [lineTransition, empty, blind]

/-- An EMPTY record that is not blind (R40). -/
theorem lineTransition_empty (empty : r.life = .empty) (clear : r.blind = false) :
    (lineTransition confirmLines bridgeLines mapping line time isOpen r).1.blind = false ∧
      (isOpen = false → (lineTransition confirmLines bridgeLines mapping line time isOpen r).1.life = .empty) ∧
      (isOpen = true → 1 < confirmLines →
        (lineTransition confirmLines bridgeLines mapping line time isOpen r).1.life = .tentative line time 1) := by
  have step : lineTransition confirmLines bridgeLines mapping line time isOpen r =
      if isOpen then seenAperture confirmLines mapping line time 1 else (r, none) := by
    simp [lineTransition, empty, clear]
  rw [step]
  refine ⟨?_, fun closed => ?_, fun still few => ?_⟩
  · split
    · unfold seenAperture
      split <;> rfl
    · exact clear
  · rw [closed]
    exact empty
  · rw [still, if_pos rfl, seenAperture_of_few few]

/-- A TENTATIVE record: a speck, one line more, or the confirmation (R41). -/
theorem lineTransition_tentative {seen : Nat} (h : r.life = .tentative l0 t0 seen) :
    (isOpen = false → (lineTransition confirmLines bridgeLines mapping line time isOpen r).1 =
        { blind := false, life := .empty }) ∧
      (isOpen = true → seen + 1 < confirmLines →
        (lineTransition confirmLines bridgeLines mapping line time isOpen r).1.life = .tentative l0 t0 (seen + 1)) ∧
      (isOpen = true → confirmLines ≤ seen + 1 →
        (lineTransition confirmLines bridgeLines mapping line time isOpen r).1.life = .opened l0 t0 mapping) := by
  have step : lineTransition confirmLines bridgeLines mapping line time isOpen r =
      if isOpen then seenAperture confirmLines mapping l0 t0 (seen + 1)
      else (Aperture.emptied false, some .speck) := by
    rw [lineTransition, h]
  rw [step]
  refine ⟨fun closed => ?_, fun still few => ?_, fun still enough => ?_⟩
  · rw [closed]
    rfl
  · rw [still, if_pos rfl, seenAperture_of_few few]
  · rw [still, if_pos rfl, seenAperture_of_enough enough]

/-- An OPEN record: kept, bridging from this line, or closed where nothing bridges (R42, R43). -/
theorem lineTransition_opened (h : r.life = .opened l0 t0 m) :
    (isOpen = true → (lineTransition confirmLines bridgeLines mapping line time isOpen r).1 = r) ∧
      (isOpen = false → 1 ≤ bridgeLines →
        (lineTransition confirmLines bridgeLines mapping line time isOpen r).1.life =
          .bridging l0 t0 m line time 1) ∧
      (isOpen = false → bridgeLines = 0 → (lineTransition confirmLines bridgeLines mapping line time isOpen r).1 =
        { blind := false, life := .empty }) := by
  have step : lineTransition confirmLines bridgeLines mapping line time isOpen r =
      if isOpen then (r, none) else absentAperture bridgeLines l0 t0 m line time 1 := by
    rw [lineTransition, h]
  rw [step]
  refine ⟨fun still => ?_, fun closed few => ?_, fun closed none => ?_⟩
  · rw [still, if_pos rfl]
  · rw [closed, if_neg (by decide), absentAperture_of_few few]
  · rw [closed, if_neg (by decide), absentAperture_of_many (by omega)]

/-- A BRIDGING record: open again, one line more, or closed (R42, R43). -/
theorem lineTransition_bridging {lc : LineNo} {tc : Time} {absent : Nat}
    (h : r.life = .bridging l0 t0 m lc tc absent) :
    (isOpen = true →
        (lineTransition confirmLines bridgeLines mapping line time isOpen r).1.life = .opened l0 t0 m) ∧
      (isOpen = false → absent + 1 ≤ bridgeLines →
        (lineTransition confirmLines bridgeLines mapping line time isOpen r).1.life =
          .bridging l0 t0 m lc tc (absent + 1)) ∧
      (isOpen = false → bridgeLines < absent + 1 →
        (lineTransition confirmLines bridgeLines mapping line time isOpen r).1 =
          { blind := false, life := .empty }) := by
  have step : lineTransition confirmLines bridgeLines mapping line time isOpen r =
      if isOpen then ({ r with life := .opened l0 t0 m }, none)
      else absentAperture bridgeLines l0 t0 m lc tc (absent + 1) := by
    rw [lineTransition, h]
  rw [step]
  refine ⟨fun again => ?_, fun closed few => ?_, fun closed many => ?_⟩
  · rw [again, if_pos rfl]
  · rw [closed, if_neg (by decide), absentAperture_of_few few]
  · rw [closed, if_neg (by decide), absentAperture_of_many many]

end

end Sys2Proof.Machine
end

section
/-! A line taken in LOCKED: the held lines, the edges, the end mark and the sampled line (02_roll_tracking R26 to
R31). -/

namespace Sys2Proof.Machine

/-! ### The loss of the roll (R27, R28, R29) -/

theorem noteLine_of_noted {ln : CompletedLine} {s : State} (noted : s.tracker.lastLine = ln.number) :
    noteLine ln s = s := by
  rw [noteLine, ← noted]
  rfl

/-- The line that loses the roll is then taken in LOST, with its number noted before (R27, R28). -/
theorem takeLine_of_lost {ln : CompletedLine} {a lost : State} {reason : Byte} (h : RollLost reason ln.number a lost)
    (unmarked : ln.mark = false) (noted : a.tracker.lastLine = ln.number) : takeLine ln lost = seekLine ln lost := by
  obtain ⟨-, tracker, -⟩ := h
  rw [takeLine_of_searching (.inr (by rw [tracker])) unmarked, noteLine_of_noted (by rw [tracker]; exact noted)]

/-! ### Held lines (R27) -/

/-- The held lines are sampled lines with the last channel states, the oldest first. -/
theorem sendHeldLines_eq (ln : CompletedLine) (left : Nat) (s : State) :
    sendHeldLines ln left s = (List.range left).reverse.foldl
      (fun w j => takeSampledLine (ln.number - BitVec.ofNat 16 (j + 1)) ln.time s.tracker.lastStates w) s := by
  induction left generalizing s with
  | zero => rfl
  | succ left ih =>
    rw [sendHeldLines, ih, takeSampledLine_tracker, List.range_succ, List.reverse_append, List.reverse_singleton,
      List.singleton_append, List.foldl_cons]

theorem sendHeldLines_tracker (ln : CompletedLine) (left : Nat) (s : State) :
    (sendHeldLines ln left s).tracker = s.tracker := by
  induction left generalizing s with
  | zero => rfl
  | succ left ih => rw [sendHeldLines, ih, takeSampledLine_tracker]

theorem lockedLine_of_gap {ln : CompletedLine} {s : State} (gap : 3 < ln.missing) :
    lockedLine ln s = seekLine ln (enterLost .gap ln.number s) := if_pos gap

theorem lockedLine_of_held {ln : CompletedLine} {s : State} (few : ln.missing ≤ 3) :
    lockedLine ln s = followLine ln (sendHeldLines ln ln.missing s) := if_neg (Nat.not_lt.mpr few)

/-! ### The edges of a LOCKED line (R26, R28) -/

theorem Tracker.follow_of_valid {t : Tracker} {ln : CompletedLine} {left right : Nat}
    (h : validEdges t.working ln.lanes = some (left, right)) :
    t.follow ln = { t.measure left right with edgeFailures := 0 } := by
  rw [Tracker.follow, h]

theorem Tracker.follow_of_invalid {t : Tracker} {ln : CompletedLine} (h : validEdges t.working ln.lanes = none) :
    t.follow ln = { t with edgeFailures := t.edgeFailures + 1 } := by
  rw [Tracker.follow, h]

/-- A measurement is the centre and the width that R21 gives, with the geometry of both. -/
theorem Tracker.measure_eq {t : Tracker} {left right centre width : Nat}
    (hc : (centre : Int) = if t.seeded then
      t.centre + (((8 * (left + right) : Nat) : Int) - t.centre).tdiv 8 else ((8 * (left + right) : Nat) : Int))
    (hw : (width : Int) = if t.seeded then
      t.width + (((16 * (right + 1 - left) : Nat) : Int) - t.width).tdiv 8
      else ((16 * (right + 1 - left) : Nat) : Int)) :
    t.measure left right = { t with
      centre := centre, width := width, seeded := true
      geometry := geometryOf centre width t.working.spanRatio } := by
  obtain ⟨rfl, rfl⟩ : centre = (t.measure left right).centre ∧ width = (t.measure left right).width := by
    cases seeded : t.seeded with
    | false =>
      obtain ⟨ec, ew⟩ := Tracker.measure_unseeded seeded left right
      rw [seeded, if_neg (by decide)] at hc hw
      exact ⟨ec ▸ Int.ofNat_inj.mp hc, ew ▸ Int.ofNat_inj.mp hw⟩
    | true =>
      obtain ⟨ec, ew⟩ := Tracker.measure_seeded seeded left right
      rw [seeded, if_pos rfl] at hc hw
      exact ⟨Int.ofNat_inj.mp (hc.trans ec.symm), Int.ofNat_inj.mp (hw.trans ew.symm)⟩
  rfl

section
variable {ln : CompletedLine} {s : State} {t : Tracker} (followed : s.tracker.follow ln = t)
include followed

theorem followLine_of_many_failures (many : s.setting .edgeLossLines ≤ t.edgeFailures) :
    followLine ln s = seekLine ln (enterLost .edges ln.number (s.setTracker t)) := by
  subst followed
  exact if_pos many

theorem followLine_of_few_failures (few : t.edgeFailures < s.setting .edgeLossLines) :
    followLine ln s = sampleLine ln (s.setTracker t) := by
  subst followed
  exact if_neg (Nat.not_le.mpr few)

end

/-! ### The end mark (R30, R31) -/

theorem openControls_eq (states : Vector Bool 102) : openControls states =
    ((List.finRange 102).filter fun c => decide (c.val ≤ 6 ∨ 95 ≤ c.val) && states[c]).length := by
  simp only [openControls, allChannels, Nat.lt_succ_iff]

/-- The end-mark count that channel states leave (R30). -/
def marksAfter (s : State) (states : Vector Bool 102) : Nat :=
  if bearsEndMark s states then s.tracker.endMarks + 1 else 0

theorem marksAfter_eq (s : State) (states : Vector Bool 102) : marksAfter s states =
    if (if s.setting .endMode = 0 then 14 else 13) ≤
        ((List.finRange 102).filter fun c => decide (c.val ≤ 6 ∨ 95 ≤ c.val) && states[c]).length
    then s.tracker.endMarks + 1 else 0 := by
  simp only [marksAfter, bearsEndMark, openControls_eq, decide_eq_true_eq]

theorem sampleLine_eq (ln : CompletedLine) (s : State) (states : Vector Bool 102)
    (h : states = channelStates s.tracker.geometry ln.lanes) :
    sampleLine ln s =
      if s.setting .endLines ≤ marksAfter s states then rollEnd ln.number s
      else takeSampledLine ln.number ln.time states
        (s.setTracker { s.tracker with endMarks := marksAfter s states, lastStates := states }) := by
  subst h
  rfl

/-- A departure from LOCKED says nothing of the half contexts and the notices. -/
theorem RollLeft.update {a s' : State} (h : RollLeft a s') {expression : Expression} (port : HostPort)
    (step : expression.nextStep = s'.expression.nextStep) :
    RollLeft a { s' with expression := expression, port := port } := by
  obtain ⟨records, specks, masked, out, keys, pedals, scan, clock, settings, contexts, voicing, heat, hub, cue, loader,
    quiet, kept⟩ := h
  exact ⟨records, specks, masked, out, keys, pedals, scan, clock, settings, contexts, voicing, heat, hub, cue, loader,
    quiet, step.trans kept⟩

/-- The end of the roll: the departure from LOCKED, both half contexts at their reset values, and ROLL_END (R31). -/
theorem rollEnd_spec (line : LineNo) (s : State) (room : s.port.notices.length < 32) :
    RollLeft s (rollEnd line s) ∧ (rollEnd line s).tracker = s.tracker.stop ∧
      (∀ h : Half, (rollEnd line s).half h = HalfContext.atReset (s.setting .resetLevel)) ∧
      (rollEnd line s).port = { s.port with notices := s.port.notices ++
        [{ kind := .rollEnd, lost := false, time := s.clock, fields := fieldLine line }] } := by
  obtain ⟨left, tracker, -, port⟩ := stopFromLocked_spec s
  obtain ⟨clock, settings⟩ : (stopFromLocked s).clock = s.clock ∧ (stopFromLocked s).settings = s.settings := by
    obtain ⟨-, -, -, -, -, -, -, clock, settings, -⟩ := left
    exact ⟨clock, settings⟩
  have ended : rollEnd line s = { stopFromLocked s with
      expression := (resetContexts (stopFromLocked s)).expression
      port := { s.port with notices := s.port.notices ++
        [{ kind := .rollEnd, lost := false, time := s.clock, fields := fieldLine line }] } } := by
    rw [← port, ← clock]
    exact State.raise_of_room _ _ _ (by rw [← port] at room; exact room)
  rw [ended]
  refine ⟨left.update _ rfl, tracker, fun h => ?_, rfl⟩
  have level : s.setting .resetLevel = (stopFromLocked s).setting .resetLevel :=
    congrArg (·.get .resetLevel) settings.symm
  rw [level]
  cases h <;> rfl

/-! ### A line taken in LOCKED (R26) -/

section
variable {s u : State} {ln : CompletedLine}

/-- Past its held lines a line in LOCKED is followed (R26, R27). -/
theorem takeLine_of_held (locked : s.tracker.mode = .locked) (unmarked : ln.mark = false) (few : ln.missing ≤ 3)
    (held : u = (List.range ln.missing).reverse.foldl
      (fun w j => takeSampledLine (ln.number - BitVec.ofNat 16 (j + 1)) ln.time s.tracker.lastStates w)
      { s with tracker := { s.tracker with lastLine := ln.number } }) :
    takeLine ln s = followLine ln u ∧ u.tracker = { s.tracker with lastLine := ln.number } ∧
      u.settings = s.settings ∧ u.clock = s.clock := by
  obtain rfl : u = sendHeldLines ln ln.missing (noteLine ln s) := by rw [held, sendHeldLines_eq]; rfl
  have frame := RollFrame.sendHeldLines ln ln.missing (noteLine ln s)
  exact ⟨by rw [takeLine_of_locked locked unmarked, lockedLine_of_held few], sendHeldLines_tracker ln _ _,
    frame.settings, frame.clock⟩

end

/-- Settles O28: the transition of each record, and the steps of R26 in the order in which a line can leave them. -/
theorem sampledLineTransitions : Obligations.SampledLineTransitions := by
  refine ⟨?transitions, ?gap, ?held⟩
  case transitions =>
    rintro s _ line time states c rfl
    rw [takeSampledLine_record]
    refine ⟨?_, ?_, fun l0 t0 seen tentative => ?_, fun l0 t0 m opened => lineTransition_opened opened,
      fun l0 t0 m lc tc absent bridging => lineTransition_bridging bridging⟩
    · rintro _ rfl empty blind
      exact lineTransition_blind empty blind
    · rintro _ rfl empty clear
      exact lineTransition_empty empty clear
    · obtain ⟨speck, seenAgain, confirmed⟩ := lineTransition_tentative tentative
      exact ⟨speck, seenAgain, fun still enough => ⟨_, confirmed still enough, rfl⟩⟩
  case gap =>
    intro s ln locked unmarked gap room
    have lost := enterLost_spec .gap ln.number (noteLine ln s) room
    exact ⟨enterLost .gap ln.number (noteLine ln s), lost, by
      rw [takeLine_of_locked locked unmarked, lockedLine_of_gap gap, takeLine_of_lost lost unmarked rfl]⟩
  case held =>
    intro s u ln locked unmarked few held
    obtain ⟨taken, tracker, settings, clock⟩ := takeLine_of_held locked unmarked few held
    have setting : ∀ x, u.setting x = s.setting x := fun x => congrArg (·.get x) settings
    refine ⟨fun edges many room => ?failed, fun tr states marks followed hstates hmarks => ?sampled⟩
    case failed =>
      have follow : u.tracker.follow ln = { u.tracker with edgeFailures := s.tracker.edgeFailures + 1 } := by
        rw [Tracker.follow_of_invalid (by rw [tracker]; exact edges), tracker]
      have lost := enterLost_spec .edges ln.number
        (u.setTracker { u.tracker with edgeFailures := s.tracker.edgeFailures + 1 }) room
      refine ⟨_, lost, ?_⟩
      rw [taken, followLine_of_many_failures follow (by rw [setting]; exact many),
        takeLine_of_lost lost unmarked (by show u.tracker.lastLine = _; rw [tracker])]
    case sampled =>
      obtain ⟨follow, failures, endMarks⟩ : u.tracker.follow ln = tr ∧ tr.edgeFailures < s.setting .edgeLossLines ∧
          tr.endMarks = s.tracker.endMarks := by
        rcases followed with ⟨left, right, centre, width, edges, positive, hc, hw, rfl⟩ | ⟨edges, below, rfl⟩
        · refine ⟨?_, positive, rfl⟩
          rw [tracker, Tracker.follow_of_valid (t := { s.tracker with lastLine := ln.number }) edges,
            Tracker.measure_eq (t := { s.tracker with lastLine := ln.number }) hc hw]
        · refine ⟨?_, below, rfl⟩
          rw [tracker, Tracker.follow_of_invalid (t := { s.tracker with lastLine := ln.number }) edges]
      have count : marksAfter (u.setTracker tr) states = marks := by
        rw [marksAfter_eq, hmarks, ← endMarks, ← setting]
        rfl
      have line : takeLine ln s = if s.setting .endLines ≤ marks then rollEnd ln.number (u.setTracker tr)
          else takeSampledLine ln.number ln.time states
            { u with tracker := { tr with endMarks := marks, lastStates := states } } := by
        rw [taken, followLine_of_few_failures follow (by rw [setting]; exact failures),
          sampleLine_eq ln (u.setTracker tr) states hstates, count, ← setting]
        rfl
      refine ⟨fun few => line.trans (if_neg (Nat.not_le.mpr few)), fun enough room => ?_⟩
      obtain ⟨left, stopped, halves, port⟩ := rollEnd_spec ln.number (u.setTracker tr) room
      rw [line, if_pos enough, ← setting, ← clock]
      exact ⟨left, stopped, halves, port⟩

end Sys2Proof.Machine
end

section
/-! The event of one channel at its receiver: a half context, a pedal or a key (03_the_aperture_table R48 to R51,
04_expression R59 to R63 and R70 to R72, 05_the_key_table R86 to R88, 09_pedals R165 to R167). -/

namespace Sys2Proof.Machine

/-! ### What a channel is used for (R50) -/

theorem channelUse_of_control {c : Channel} {h : Half} {place : Nat} (control : ControlChannel c h place) :
    channelUse c = .control h (controlAt place) := by
  rcases control with ⟨low, rfl, rfl⟩ | ⟨low, high, rfl, rfl⟩
  · rw [channelUse, if_pos low]
  · rw [channelUse, if_neg (by omega), if_neg (by omega), if_neg (by omega), if_pos high]

theorem channelUse_of_pedal {c : Channel} {p : Pedal} (pedal : c = match p with | .sustain => 6 | .shift => 101) :
    channelUse c = .pedal p := by
  subst pedal
  cases p <;> rfl

theorem channelUse_of_note {c : Channel} (low : 6 < c.val) (high : c.val < 95) :
    channelUse c = .note (c.val - 6) := by
  rw [channelUse, if_neg (by omega), if_neg (by omega), if_pos high]

/-! ### Half contexts (R59 to R63) -/

theorem stepContext_up (step : Nat) (c : HalfContext) : stepContext step c = { c with
    base := min 1023 (c.base + step)
    effective := if c.crescendo = .none then min 16368 (c.effective + 16 * step) else c.effective } := by
  have base : ((c.base : Int) + step).toNat = c.base + step := by omega
  have effective : ((c.effective : Int) + 16 * step).toNat = c.effective + 16 * step := by omega
  rw [stepContext, clampNat, clampNat, base, effective]

theorem stepContext_down (step : Nat) (c : HalfContext) : stepContext (-(step : Int)) c = { c with
    base := min 1023 (c.base - step)
    effective := if c.crescendo = .none then min 16368 (c.effective - 16 * step) else c.effective } := by
  have base : ((c.base : Int) + -(step : Int)).toNat = c.base - step := by omega
  have effective : ((c.effective : Int) + 16 * -(step : Int)).toNat = c.effective - 16 * step := by omega
  rw [stepContext, clampNat, clampNat, base, effective]

/-- A control event by its place: the step of R60, the table of R61, the markings of R62 and R63. -/
theorem controlTaken_controlContext (step place : Nat) (confirmed : Bool) (c : HalfContext) :
    ControlTaken step place confirmed c (controlContext step (controlAt place) confirmed c) := by
  match place with
  | 0 =>
    show (if confirmed then stepContext step c else c) = _
    rw [stepContext_up]
  | 1 =>
    show (if confirmed then stepContext (-(step : Int)) c else c) = _
    rw [stepContext_down]
  | 2 =>
    show { c with crescendo := crescendoAfter false confirmed c.crescendo } = _
    cases confirmed <;> cases c.crescendo <;> rfl
  | 3 =>
    show { c with crescendo := crescendoAfter true confirmed c.crescendo } = _
    cases confirmed <;> cases c.crescendo <;> rfl
  | 4 => exact rfl
  | _ + 5 => exact rfl

/-! ### Pedals (R165 to R167) -/

theorem placeEvent_append (e : PedalEvent) (front back : List PedalEvent)
    (earlier : ∀ x ∈ front, clockDiff x.time e.time ≤ 0)
    (later : ∀ x, back.head? = some x → 0 < clockDiff x.time e.time) :
    placeEvent e (front ++ back) = front ++ [e] ++ back := by
  induction front with
  | nil =>
    cases back with
    | nil => rfl
    | cons x back => exact if_pos (later x rfl)
  | cons x front ih =>
    have behind : ¬ 0 < clockDiff x.time e.time := Int.not_lt.mpr (earlier x List.mem_cons_self)
    rw [List.cons_append, placeEvent, if_neg behind, ih fun y hy => earlier y (List.mem_cons_of_mem x hy)]
    rfl

theorem drainEvents_append (now : Time) (gone later : List PedalEvent) (target : Nat)
    (due : ∀ x ∈ gone, reached now x.time) (ahead : ∀ x, later.head? = some x → ¬ reached now x.time) :
    drainEvents now (gone ++ later) target = (later, (gone.getLast?.map PedalEvent.target).getD target) := by
  induction gone generalizing target with
  | nil =>
    cases later with
    | nil => rfl
    | cons x later => exact if_neg (ahead x rfl)
  | cons x gone ih =>
    rw [List.cons_append, drainEvents, if_pos (due x List.mem_cons_self),
      ih _ fun y hy => due y (List.mem_cons_of_mem x hy), List.getLast?_cons]
    cases gone.getLast? <;> rfl

/-- What a roll pedal event makes of a pedal's record (R165 to R167). -/
def pedalAfterEvent (now : Time) (e : PedalEvent) (r : PedalRecord) : PedalRecord :=
  if r.owner = .roll ∧ r.mode ≠ .fault then
    { r with
      events := (drainEvents now (insertEvent e r.events) r.target).1
      target := (drainEvents now (insertEvent e r.events) r.target).2 }
  else r

theorem pedalEventTaken_pedalAfterEvent (now : Time) (e : PedalEvent) (r : PedalRecord) :
    PedalEventTaken now e r (pedalAfterEvent now e r) := by
  refine ⟨fun dropped => ?dropped, fun owned sound front back gone later queue earlier after split due ahead => ?taken⟩
  case dropped =>
    refine if_neg fun ⟨owned, sound⟩ => ?_
    rcases dropped with other | fault
    · rw [owned] at other
      cases other
    · exact sound fault
  case taken =>
    have inserted : insertEvent e r.events = gone ++ later := by
      rw [insertEvent, queue, placeEvent_append e front back earlier after, split]
    rw [pedalAfterEvent, if_pos ⟨owned, sound⟩, inserted, drainEvents_append now gone later _ due ahead]

theorem State.setPedal_pedal (p : Pedal) (s : State) : s.setPedal p (s.pedal p) = s := by cases p <;> rfl

theorem State.setPedal_setPedal (p : Pedal) (r r' : PedalRecord) (s : State) :
    (s.setPedal p r).setPedal p r' = s.setPedal p r' := by cases p <;> rfl

theorem rollPedalEvent_eq (p : Pedal) (time : Time) (target : Nat) (s : State) :
    rollPedalEvent p time target s =
      s.setPedal p (pedalAfterEvent s.clock { time := time, target := target } (s.pedal p)) := by
  rw [rollPedalEvent, pedalAfterEvent]
  split
  · rw [applyDueEvents, State.pedal_setPedal_same, State.setPedal_setPedal, State.setPedal_clock]
  · exact (State.setPedal_pedal p s).symm

/-! ### The close of a note (R49, R87, R88) -/

/-- What a matching close with a release time leaves of a phase (R88). -/
def releasedPhase (now gapEnd release : Time) : KeyPhase → KeyPhase
  | .pending n v => .pending { n with release := some release } v
  | .strike n v l sensed t none => .strike { n with release := some release } v l sensed t none
  | .strike n v l sensed t (some m) => .strike n v l sensed t (some { m with release := some release })
  | .hold n v l d start =>
    if reached now release then .damp gapEnd else .hold { n with release := some release } v l d start
  | .waiting m g => .waiting { m with release := some release } g
  | p => p

theorem releaseStored_releasedPhase (now gapEnd release : Time) (p : KeyPhase) :
    ReleaseStored now gapEnd release p (releasedPhase now gapEnd release p) := by
  refine ⟨?pending, ?strike, ?displaced, ?held, ?due, ?waiting⟩
  case held =>
    rintro n v l d start rfl ahead
    exact if_neg ahead
  case due =>
    rintro n v l d start rfl come
    exact if_pos come
  all_goals
    intros
    subst_vars
    rfl

theorem State.setPhase_phase (k : Key) (s : State) : s.setPhase k (s.key k).phase = s := setKey_same s k

theorem storeRelease_eq (k : Key) (release : Time) (s : State) :
    storeRelease k release s = s.setPhase k (releasedPhase s.clock (gapEndNow s k) release (s.key k).phase) := by
  have kept := State.setPhase_phase k s
  unfold storeRelease
  cases phase : (s.key k).phase with
  | strike n v l sensed t m => cases m <;> rfl
  | hold n v l d start =>
    dsimp only [releasedPhase]
    split <;> rfl
  | pending n v => rfl
  | waiting m g => rfl
  | idle => rw [phase] at kept; exact kept.symm
  | damp g => rw [phase] at kept; exact kept.symm
  | retired r => rw [phase] at kept; exact kept.symm

section
variable {c : Channel} {k : Key} {s : State}

/-- A close of a roll note needs no examination of a head that does not wait (R132). -/
theorem rollNoteClose_of_quiet (time : Time) (quiet : s.queue.status ≠ .waiting) :
    rollNoteClose c k time s = closeKey (rollOwner c) (latencyAfter s time) k s := by
  have queue : (closeKey (rollOwner c) (latencyAfter s time) k s).queue = s.queue := by
    rcases closeKey_spec (rollOwner c) (latencyAfter s time) k s with e | ⟨-, p, e⟩ <;> rw [e]
    rfl
  exact settling_of_quiet _ s (by rw [queue]) (by rw [queue]; exact quiet)

theorem rollNoteClose_of_other (time : Time) (quiet : s.queue.status ≠ .waiting)
    (other : s.owner k ≠ some (rollOwner c)) : rollNoteClose c k time s = s := by
  rw [rollNoteClose_of_quiet time quiet]
  exact if_neg other

theorem rollNoteClose_of_owner (time : Time) (quiet : s.queue.status ≠ .waiting)
    (own : s.owner k = some (rollOwner c)) : rollNoteClose c k time s =
      s.setPhase k (releasedPhase s.clock (gapEndNow s k) (latencyAfter s time) (s.key k).phase) := by
  rw [rollNoteClose_of_quiet time quiet, ← storeRelease_eq]
  exact if_pos own

end

/-! ### The open of a note (R48, R70 to R72, R86) -/

/-- The level of a roll note and its chord latch are the ones of R70 to R72. -/
theorem rollNoteLevel_eq {k : Key} {onset : LineNo} {accent : Bool} {level : Nat} {latch : Option ChordLatch}
    {s : State} (levelled : RollLevel s (keyHalf s k) onset accent level latch) :
    rollNoteLevel k onset accent s =
      (s.setHalf (keyHalf s k) { s.half (keyHalf s k) with latch := latch }, level) := by
  obtain ⟨chord, noWindow, window, rfl⟩ := levelled
  have chorded : chordPart (s.setting .chordWindow) (s.output (keyHalf s k)) onset (s.half (keyHalf s k)).latch =
      (chord, latch) := by
    unfold chordPart
    split
    · rename_i none
      obtain ⟨rfl, rfl⟩ := noWindow none
      rfl
    · rename_i some
      obtain ⟨inside, outside⟩ := window (by omega)
      split
      · rename_i l held
        split
        · rename_i near
          obtain ⟨rfl, rfl⟩ := inside l held near
          rfl
        · rename_i far
          obtain ⟨rfl, rfl⟩ := outside fun l' held' => by
            rw [held] at held'
            cases held'
            omega
          rfl
      · rename_i absent
        obtain ⟨rfl, rfl⟩ := outside fun l held => by
          rw [absent] at held
          cases held
        rfl
  rw [rollNoteLevel]
  dsimp only
  rw [chorded, notePart]
  cases accent <;> rfl

/-- A key placed in an empty queue, its planned launch to come, makes its head TIMED (R118). -/
theorem settling_of_first {f : State → State} {s : State} {k : Key} {e : QueueEntry} (empty : s.queue.entries = [])
    (placed : (f s).queue.entries = [e]) (ahead : ¬ reached (f s).clock e.planned) :
    settling (some k) f s = (f s).setStatus .timed := by
  have examined : settling (some k) f s = examineHead (f s) := by
    refine if_pos (.inl ?_)
    rw [placed, empty]
    exact List.cons_ne_nil e [] ∘ fun h => by cases h
  rw [examined, examineHead, placed]
  show examineLoop 2 (f s) = _
  rw [examineLoop, placed]
  exact if_neg ahead

/-- A note entering PENDING alone in the queue. -/
theorem enterPending_of_empty {k : Key} {n : Note} {v : StrikeValues} {s : State} (empty : s.queue.entries = []) :
    enterPending k n v s = { s with
      keys := s.keys.set k { s.key k with phase := .pending n v }
      queue := { s.queue with entries := [{ key := k, planned := v.planned }] } } := by
  rw [enterPending, empty]
  rfl

/-- The claim of a roll note (R48). -/
def rollClaim (c : Channel) (k : Key) (onset : LineNo) (time : Time) (s : State) : Claim where
  key := k
  claimant := rollOwner c
  sound := latencyAfter s time
  level := .roll onset (accentFor s k)

/-- A claim of an IDLE key by an enabled source meets no other test (R81, R82). -/
theorem claim_of_idle {c : Claim} {s : State} (enabled : (s.context c.claimant.source).enabled = true)
    (idle : (s.key c.key).phase = .idle) :
    claim c s = (settling (some c.key) (takeClaim c) s, .taken (phaseNumber ((takeClaim c s).key c.key).phase)) := by
  have unowned : s.owner c.key = none := by rw [State.owner, idle]; rfl
  have passes : passesPriority c s = true := by rw [passesPriority, unowned]
  rcases claim_spec c s with ⟨disabled, -⟩ | ⟨-, retired, -⟩ | ⟨-, -, refused, -⟩ | ⟨-, -, -, taken⟩
  · rw [enabled] at disabled
    cases disabled
  · rw [idle] at retired
    cases retired
  · rw [passes] at refused
    cases refused
  · exact taken

section
variable {c : Channel} {k : Key} {onset : LineNo} {time : Time} {level : Nat} {latch : Option ChordLatch} {n : Note}
  {s : State}

/-- An IDLE key takes the note of a roll claim into PENDING (R83, R86). -/
theorem takeClaim_of_idle (idle : (s.key k).phase = .idle)
    (levelled : RollLevel s (keyHalf s k) onset (accentFor s k) level latch)
    (note : n = { claimant := rollOwner c, sound := latencyAfter s time, level := level, release := none }) :
    takeClaim (rollClaim c k onset time s) s = enterPending k n (computeStrike s k n)
      (s.setHalf (keyHalf s k) { s.half (keyHalf s k) with latch := latch }) := by
  have levelNoted : levelNote (rollClaim c k onset time s) s =
      (s.setHalf (keyHalf s k) { s.half (keyHalf s k) with latch := latch }, n) := by
    rw [levelNote, note]
    dsimp only [rollClaim]
    rw [rollNoteLevel_eq levelled]
  have first : ∀ u : State, firstLevel u n = n := fun u => by rw [note]; rfl
  rw [takeClaim, levelNoted]
  dsimp only [rollClaim]
  rw [State.setHalf_key, idle]
  dsimp only
  rw [placeNote, first, computeStrike, State.setHalf_setting, State.setHalf_setting, State.setHalf_voice,
    State.setHalf_pedals, computeStrike]

/-- A roll note on an IDLE key of the enabled ROLL context, with nothing else queued: PENDING, TIMED, and its half's
chord latch (R48, R71, R86). -/
theorem rollNoteOpen_of_idle {h : Half} {accent : Bool} {v : StrikeValues} (enabled : s.contexts.roll.enabled = true)
    (idle : (s.key k).phase = .idle) (empty : s.queue.entries = []) (half : keyHalf s k = h)
    (accented : accentFor s k = accent) (levelled : RollLevel s h onset accent level latch)
    (note : n = { claimant := rollOwner c, sound := latencyAfter s time, level := level, release := none })
    (values : v = computeStrike s k n) (ahead : ¬ reached s.clock v.planned) :
    rollNoteOpen c k onset time s = { s.setHalf h { s.half h with latch := latch } with
      keys := s.keys.set k { s.key k with phase := .pending n v }
      queue := { entries := [{ key := k, planned := v.planned }], status := .timed } } := by
  subst half accented
  have taken := takeClaim_of_idle (c := c) (time := time) idle levelled note
  rw [← values, enterPending_of_empty (by rw [State.setHalf_queue]; exact empty)] at taken
  have opened : rollNoteOpen c k onset time s = settling (some k) (takeClaim (rollClaim c k onset time s)) s := by
    have claimed := claim_of_idle (c := rollClaim c k onset time s) enabled idle
    unfold rollClaim at claimed
    rw [rollNoteOpen, claimed]
    rfl
  rw [opened, settling_of_first empty (by rw [taken]) (by rw [taken, State.setHalf_clock]; exact ahead), taken]
  cases keyHalf s k <;> rfl

end

end Sys2Proof.Machine
end

section
/-! APERTURE_CLOSE and a sampled line on which one channel alone has an event (03_the_aperture_table R38 to R55). -/

namespace Sys2Proof.Machine

/-! ### One event sent to its receiver (R44) -/

/-- One channel's event sent through the four groups of R44. -/
def sendEvent (c : Channel) (e : ApertureEvent) (s : State) : State :=
  sendPedal c e (sendNoteOpen c e (sendNoteClose c e (sendControl c e s)))

theorem sendEvents_singleton (c : Channel) (e : ApertureEvent) (s : State) :
    sendEvents [(c, e)] s = sendEvent c e s := rfl

/-- A close opens no note, so that the close of APERTURE_CLOSE is sent as that of a line is (R55). -/
theorem sendClose_eq (c : Channel) (m : Option Mapping) (s : State) :
    sendClose c m s = sendEvent c (.closed m s.clock) s := by
  have noOpen : ∀ u, sendNoteOpen c (.closed m s.clock) u = u := fun u => by
    unfold sendNoteOpen
    split
    · rename_i closed
      cases closed
    · rfl
  rw [sendEvent, noOpen, sendClose]

section
variable {c : Channel} (e : ApertureEvent) (l : LineNo) (m : Option Mapping) (t : Time) (s : State)

theorem sendEvent_of_control {h : Half} {place : Nat} (control : ControlChannel c h place) :
    sendEvent c e s = sendControl c e s := by
  simp [sendEvent, sendNoteClose, sendNoteOpen, sendPedal, channelUse_of_control control]

theorem sendEvent_confirmed_of_control {h : Half} {place : Nat} (control : ControlChannel c h place) :
    ∃ x, ControlTaken (s.setting .stepSize) place true (s.half h) x ∧
      sendEvent c (.confirmed l t m) s = s.setHalf h x := by
  refine ⟨_, controlTaken_controlContext _ place true _, ?_⟩
  rw [sendEvent_of_control _ _ control]
  unfold sendControl
  rw [channelUse_of_control control]
  rfl

theorem sendEvent_closed_of_control {h : Half} {place : Nat} (control : ControlChannel c h place) :
    ∃ x, ControlTaken (s.setting .stepSize) place false (s.half h) x ∧
      sendEvent c (.closed m t) s = s.setHalf h x := by
  refine ⟨_, controlTaken_controlContext _ place false _, ?_⟩
  rw [sendEvent_of_control _ _ control]
  unfold sendControl
  rw [channelUse_of_control control]
  rfl

theorem sendEvent_of_pedal {p : Pedal} (pedal : c = match p with | .sustain => 6 | .shift => 101) :
    sendEvent c e s = sendPedal c e s := by
  simp [sendEvent, sendControl, sendNoteClose, sendNoteOpen, channelUse_of_pedal pedal]

theorem sendEvent_confirmed_of_pedal {p : Pedal} (pedal : c = match p with | .sustain => 6 | .shift => 101) :
    ∃ x, PedalEventTaken s.clock { time := engageTime s t, target := s.setting .pedalEngagePos } (s.pedal p) x ∧
      sendEvent c (.confirmed l t m) s = s.setPedal p x := by
  refine ⟨_, pedalEventTaken_pedalAfterEvent _ _ _, ?_⟩
  rw [sendEvent_of_pedal _ _ pedal]
  unfold sendPedal
  rw [channelUse_of_pedal pedal]
  exact rollPedalEvent_eq p _ _ s

theorem sendEvent_closed_of_pedal {p : Pedal} (pedal : c = match p with | .sustain => 6 | .shift => 101) :
    ∃ x, PedalEventTaken s.clock { time := releaseTimeOf s t, target := 0 } (s.pedal p) x ∧
      sendEvent c (.closed m t) s = s.setPedal p x := by
  refine ⟨_, pedalEventTaken_pedalAfterEvent _ _ _, ?_⟩
  rw [sendEvent_of_pedal _ _ pedal]
  unfold sendPedal
  rw [channelUse_of_pedal pedal]
  exact rollPedalEvent_eq p _ _ s

section
variable (low : 6 < c.val) (high : c.val < 95)
include low high

theorem sendEvent_of_note : sendEvent c e s = sendNoteOpen c e (sendNoteClose c e s) := by
  simp [sendEvent, sendControl, sendPedal, channelUse_of_note low high]

theorem sendEvent_confirmed_of_note : sendEvent c (.confirmed l t m) s = match m with
    | some (.key k) => rollNoteOpen c k l t s
    | _ => s := by
  rw [sendEvent_of_note _ _ low high]
  unfold sendNoteOpen sendNoteClose
  rw [channelUse_of_note low high]
  rcases m with _ | _ | _ | _ <;> rfl

theorem sendEvent_closed_of_note : sendEvent c (.closed m t) s = match m with
    | some (.key k) => rollNoteClose c k t s
    | _ => s := by
  rw [sendEvent_of_note _ _ low high]
  unfold sendNoteOpen sendNoteClose
  rw [channelUse_of_note low high]
  rcases m with _ | _ | _ | _ <;> rfl

/-- The close of a note with no key goes nowhere (R55). -/
theorem sendEvent_closed_of_unmapped {m : Option Mapping} (unmapped : ∀ k, m ≠ some (.key k)) :
    sendEvent c (.closed m t) s = s := by
  rw [sendEvent_closed_of_note _ _ _ low high]
  split
  · exact absurd rfl (unmapped _)
  · rfl

variable {s} {k : Key} (quiet : s.queue.status ≠ .waiting)
include quiet

theorem sendEvent_closed_of_other (other : s.owner k ≠ some (rollOwner c)) :
    sendEvent c (.closed (some (.key k)) t) s = s := by
  rw [sendEvent_closed_of_note _ _ _ low high]
  exact rollNoteClose_of_other t quiet other

theorem sendEvent_closed_of_owner (own : s.owner k = some (rollOwner c)) :
    ∃ p, ReleaseStored s.clock (gapEndNow s k) (latencyAfter s t) (s.key k).phase p ∧
      sendEvent c (.closed (some (.key k)) t) s = s.setPhase k p := by
  refine ⟨_, releaseStored_releasedPhase _ _ _ _, ?_⟩
  rw [sendEvent_closed_of_note _ _ _ low high]
  exact rollNoteClose_of_owner t quiet own

end

end

/-! ### APERTURE_CLOSE (R55) -/

theorem actApertureClose_of_channel (c : Channel) (s : State) : actApertureClose [byteOf c.val] s =
    answerOk (closeAperture c s) [byteOf (lifeNumber (s.apertures.records[c]).life)] := by
  rw [actApertureClose, argByte_byteOf (by omega), channelOfNumber, dif_pos c.isLt]

theorem actApertureClose_of_other {n : Nat} (low : 101 < n) (high : n < 256) (s : State) :
    actApertureClose [byteOf n] s = refuse s .badArgument := by
  rw [actApertureClose, argByte_byteOf high, channelOfNumber, dif_neg (by omega)]

theorem closeAperture_of_silent {c : Channel} {s : State} (silent : lifeNumber (s.apertures.records[c]).life ≤ 1) :
    closeAperture c s = blindRecord c s := by
  unfold closeAperture
  cases life : (s.apertures.records[c]).life with
  | empty => rfl
  | tentative l t seen => rfl
  | opened l t m =>
    rw [life] at silent
    exact absurd silent (show ¬ 2 ≤ 1 by decide)
  | bridging l t m lc tc absent =>
    rw [life] at silent
    exact absurd silent (show ¬ 3 ≤ 1 by decide)

/-- A record in OPEN or BRIDGING with a mapping: one that sends a close (R55). -/
def HoldsOpen (m : Option Mapping) (life : ApertureLife) : Prop :=
  (∃ l0 t0, life = .opened l0 t0 m) ∨ ∃ l0 t0 lc tc absent, life = .bridging l0 t0 m lc tc absent

theorem closeAperture_of_open {c : Channel} {m : Option Mapping} {s : State}
    (holds : HoldsOpen m (s.apertures.records[c]).life) :
    closeAperture c s = sendEvent c (.closed m s.clock) (blindRecord c s) := by
  rw [closeAperture]
  rcases holds with ⟨l0, t0, life⟩ | ⟨l0, t0, lc, tc, absent, life⟩ <;> rw [life] <;> exact sendClose_eq c m _

/-- APERTURE_CLOSE of a channel whose record stands at the head (R55). -/
theorem exec_apertureClose {s a closed : State} {t : Time} {tag : Byte} {c : Channel} (arrived : s.arrive t = a)
    (head : RequestAtHead a 0x0D tag [byteOf c.val]) (effect : closeAperture c a.dropHead = closed) :
    exec (.apertureClose t) s = .next
      (closed.respond (byteOf 0x0D) tag .ok [byteOf (lifeNumber (a.apertures.records[c]).life)]) := by
  subst effect
  rw [exec_of_request (act := actApertureClose) rfl arrived head rfl, actApertureClose_of_channel]
  rfl

/-! ### A line with one event (R38, R44) -/

/-- The events of a sampled line, in channel order (R38). -/
def lineEvents (line : LineNo) (time : Time) (states : Vector Bool 102) (s : State) :
    List (Channel × ApertureEvent) :=
  (lineResults line time states s).filterMap fun r => r.2.2.map fun e => (r.1, e)

/-- The transition of a channel's record on a line. -/
def channelTransition (line : LineNo) (time : Time) (states : Vector Bool 102) (s : State) (c : Channel) :
    Aperture × Option ApertureEvent :=
  lineTransition (s.setting .confirmLines) (s.setting .bridgeLines) (confirmMapping s c) line time states[c]
    s.apertures.records[c]

section
variable {line : LineNo} {time : Time} {states : Vector Bool 102} {s s' : State} {c : Channel} {e : ApertureEvent}

theorem filterMap_of_single {α β : Type} {f : α → Option β} {l : List α} {a : α} {b : β} (nodup : l.Nodup)
    (mem : a ∈ l) (hit : f a = some b) (others : ∀ x, x ≠ a → f x = none) : l.filterMap f = [b] := by
  obtain ⟨front, back, rfl⟩ := List.append_of_mem mem
  have apart := List.nodup_middle.mp nodup
  rw [List.nodup_cons, List.mem_append, not_or] at apart
  obtain ⟨⟨notFront, notBack⟩, -⟩ := apart
  have missed : ∀ l : List α, a ∉ l → l.filterMap f = [] := fun l h =>
    List.filterMap_eq_nil_iff.mpr fun x hx => others x fun e => h (e ▸ hx)
  rw [List.filterMap_append, List.filterMap_cons_some hit, missed front notFront, missed back notBack]
  rfl

theorem lineEvents_of_alone (alone : ∀ d : Channel, d ≠ c → (channelTransition line time states s d).2 = none)
    (event : (channelTransition line time states s c).2 = some e) : lineEvents line time states s = [(c, e)] := by
  rw [lineEvents, lineResults, List.filterMap_map]
  refine filterMap_of_single (List.nodup_finRange 102) (List.mem_finRange c) ?hit fun d other => ?miss
  case hit => exact congrArg (Option.map fun e => (c, e)) event
  case miss => exact congrArg (Option.map fun e => (d, e)) (alone d other)

theorem takeSampledLine_eq (line : LineNo) (time : Time) (states : Vector Bool 102) (s : State) :
    ∃ records, takeSampledLine line time states s = sendEvents (lineEvents line time states s) { s with
      apertures := (lineEvents line time states s).foldl (fun a e => countEvent a e.2)
        { s.apertures with records := records } } :=
  ⟨_, rfl⟩

/-- The state that sends a line's one event: the records after the line, the event counted (R53). -/
def counted (e : ApertureEvent) (records : Vector Aperture 102) (s : State) : State :=
  { s with apertures := countEvent { s.apertures with records := records } e }

/-- The line's one event, counted and sent on from the state with the records that the line leaves. -/
theorem takeSampledLine_of_alone (taken : takeSampledLine line time states s = s')
    (alone : ∀ d : Channel, d ≠ c → (channelTransition line time states s d).2 = none)
    (event : (channelTransition line time states s c).2 = some e) :
    s' = sendEvent c e (counted e s'.apertures.records s) := by
  obtain ⟨records, sent⟩ := takeSampledLine_eq line time states s
  rw [taken, lineEvents_of_alone alone event] at sent
  have kept : s'.apertures.records = records := by
    rw [sent, (EventUpdate.sendEvents _ _).records]
    exact countEvent_records _ e
  rw [kept, ← sendEvents_singleton]
  exact sent

/-- A channel that is open long enough confirms: its event carries the onset and the mapping (R40, R41). -/
theorem channelTransition_confirmed {l0 : LineNo} {t0 : Time} (still : states[c] = true)
    (seen : (∃ seen, (s.apertures.records[c]).life = .tentative l0 t0 seen ∧ s.setting .confirmLines ≤ seen + 1) ∨
      (s.apertures.records[c] = { blind := false, life := .empty } ∧ s.setting .confirmLines ≤ 1 ∧ l0 = line ∧
        t0 = time)) :
    (channelTransition line time states s c).2 = some (.confirmed l0 t0 (confirmMapping s c)) := by
  rw [channelTransition, lineTransition, still]
  rcases seen with ⟨seen, life, enough⟩ | ⟨record, enough, rfl, rfl⟩
  · rw [life]
    dsimp only
    rw [if_pos rfl, seenAperture, if_pos enough]
  · rw [record]
    dsimp only
    rw [if_neg (by decide), if_pos rfl, seenAperture, if_pos enough]

/-- A channel that is absent too long closes: its event carries the mapping and the close time (R42, R43). -/
theorem channelTransition_closed {m : Option Mapping} {tc : Time} (absent : states[c] = false)
    (many : (∃ l0 t0, (s.apertures.records[c]).life = .opened l0 t0 m ∧ s.setting .bridgeLines = 0 ∧
        tc = time) ∨
      ∃ l0 t0 lc absent, (s.apertures.records[c]).life = .bridging l0 t0 m lc tc absent ∧
        s.setting .bridgeLines < absent + 1) :
    (channelTransition line time states s c).2 = some (.closed m tc) := by
  rw [channelTransition, lineTransition, absent]
  rcases many with ⟨l0, t0, life, none, rfl⟩ | ⟨l0, t0, lc, n, life, many⟩
  · rw [life]
    dsimp only
    rw [if_neg (by decide), absentAperture, if_pos (by omega)]
  · rw [life]
    dsimp only
    rw [if_neg (by decide), absentAperture, if_pos many]

end

/-! ### The mapping at a confirmation (R46, R47) -/

section
variable {s : State} {c : Channel}

theorem confirmMapping_of_control {h : Half} {place : Nat} (control : ControlChannel c h place) :
    confirmMapping s c = none := by
  rw [confirmMapping, channelUse_of_control control]

theorem confirmMapping_of_pedal {p : Pedal} (pedal : c = match p with | .sustain => 6 | .shift => 101) :
    confirmMapping s c = none := by
  rw [confirmMapping, channelUse_of_pedal pedal]

variable {k : Key} (low : 6 < c.val) (high : c.val < 95)
include low high

theorem confirmMapping_of_disabled (disabled : s.contexts.roll.enabled = false) :
    confirmMapping s c = some .disabled := by
  rw [confirmMapping, channelUse_of_note low high]
  simp [mapNote, disabled]

variable (mapped : k = transposedKey s.contexts.roll (c.val - 6))
include mapped

theorem confirmMapping_of_outOfRange (enabled : s.contexts.roll.enabled = true)
    (out : keyNumber k < s.contexts.roll.keyLow ∨ s.contexts.roll.keyHigh < keyNumber k) :
    confirmMapping s c = some .outOfRange := by
  have outside : inKeyRange s.contexts.roll k = false := decide_eq_false (by omega)
  rw [confirmMapping, channelUse_of_note low high]
  simp [mapNote, enabled, ← mapped, outside]

theorem confirmMapping_of_inRange (enabled : s.contexts.roll.enabled = true)
    (above : s.contexts.roll.keyLow ≤ keyNumber k) (below : keyNumber k ≤ s.contexts.roll.keyHigh) :
    confirmMapping s c = some (.key k) := by
  have inside : inKeyRange s.contexts.roll k = true := decide_eq_true ⟨above, below⟩
  rw [confirmMapping, channelUse_of_note low high]
  simp [mapNote, enabled, ← mapped, inside]

end

/-- The accent field of a note, read off the ACCENT record of its half (R48). -/
theorem accentFor_eq {s : State} {k : Key} {h : Half} : keyHalf s k = h → accentFor s k =
    match h, lifeNumber (s.apertures.records[(4 : Channel)]).life,
      lifeNumber (s.apertures.records[(99 : Channel)]).life with
    | .bass, 1, _ => true
    | .bass, 2, _ => true
    | .treble, _, 1 => true
    | .treble, _, 2 => true
    | _, _, _ => false := by
  intro half
  cases h with
  | bass =>
    simp only [accentFor, half, accentChannel]
    cases (s.apertures.records[(4 : Channel)]).life <;> rfl
  | treble =>
    simp only [accentFor, half, accentChannel]
    cases (s.apertures.records[(99 : Channel)]).life <;> rfl

/-- Settles O29: the event at its receiver, from the record that APERTURE_CLOSE leaves and from the records that the
line leaves. -/
theorem apertureCloseCompletes : Obligations.ApertureCloseCompletes := by
  refine ⟨?close, ?line⟩
  case close =>
    rintro s a t _ tag arrived rfl
    refine ⟨?_, fun n low high head =>
      exec_of_answer rfl arrived head rfl (actApertureClose_of_other low high a.dropHead)⟩
    rintro c _ _ head rfl rfl
    refine ⟨fun silent => ?silent, fun m holds => ?_⟩
    case silent =>
      rw [exec_apertureClose arrived head (closeAperture_of_silent (s := a.dropHead) silent)]
      rfl
    have effect := closeAperture_of_open (s := a.dropHead) holds
    refine ⟨fun h place control => ?control, fun p pedal => ?pedal,
      fun low high => ⟨fun unmapped => ?unmapped, fun k mapped quiet => ⟨fun other => ?other, fun own => ?own⟩⟩⟩
    case control =>
      obtain ⟨x, taken, sent⟩ := sendEvent_closed_of_control m a.clock (blindRecord c a.dropHead) control
      refine ⟨x, taken, ?_⟩
      rw [exec_apertureClose arrived head (effect.trans sent)]
      cases h <;> rfl
    case pedal =>
      obtain ⟨x, taken, sent⟩ := sendEvent_closed_of_pedal m a.clock (blindRecord c a.dropHead) pedal
      refine ⟨x, taken, ?_⟩
      rw [exec_apertureClose arrived head (effect.trans sent)]
      cases p <;> rfl
    case unmapped =>
      have sent := sendEvent_closed_of_unmapped a.clock (blindRecord c a.dropHead) low high unmapped
      rw [exec_apertureClose arrived head (effect.trans sent)]
      rfl
    case other =>
      subst mapped
      have sent := sendEvent_closed_of_other a.clock low high (s := blindRecord c a.dropHead) quiet other
      rw [exec_apertureClose arrived head (effect.trans sent)]
      rfl
    case own =>
      subst mapped
      obtain ⟨p, stored, sent⟩ := sendEvent_closed_of_owner a.clock low high (s := blindRecord c a.dropHead) quiet own
      refine ⟨p, stored, ?_⟩
      rw [exec_apertureClose arrived head (effect.trans sent)]
      rfl
  case line =>
    intro s s' line time states c taken alone
    refine ⟨fun l0 t0 still seen => ?confirmed, fun m tc absent many => ?closed⟩
    case confirmed =>
      have sent := takeSampledLine_of_alone taken alone (channelTransition_confirmed still seen)
      refine ⟨fun h place control => ?control, fun p pedal => ?pedal,
        fun low high k mapped => ⟨fun disabled => ?disabled, fun enabled => ⟨fun out => ?out,
          fun above below h accent level latch n v idle empty _ half accented levelled note values ahead => ?opened⟩⟩⟩
      case control =>
        rw [confirmMapping_of_control control] at sent
        obtain ⟨x, taken, received⟩ :=
          sendEvent_confirmed_of_control l0 none t0 (counted _ s'.apertures.records s) control
        refine ⟨x, taken, (sent.trans received).trans ?_⟩
        cases h <;> rfl
      case pedal =>
        rw [confirmMapping_of_pedal pedal] at sent
        obtain ⟨x, taken, received⟩ :=
          sendEvent_confirmed_of_pedal l0 none t0 (counted _ s'.apertures.records s) pedal
        refine ⟨x, taken, (sent.trans received).trans ?_⟩
        cases p <;> rfl
      case disabled =>
        rw [confirmMapping_of_disabled low high disabled, sendEvent_confirmed_of_note _ _ _ _ low high] at sent
        exact sent
      case out =>
        rw [confirmMapping_of_outOfRange low high mapped enabled out,
          sendEvent_confirmed_of_note _ _ _ _ low high] at sent
        exact sent
      case opened =>
        rw [confirmMapping_of_inRange low high mapped enabled above below,
          sendEvent_confirmed_of_note _ _ _ _ low high] at sent
        have half' : keyHalf (counted (.confirmed l0 t0 (some (.key k))) s'.apertures.records s) k = h := half.symm
        have opened := rollNoteOpen_of_idle (c := c) (time := t0) (n := n) (v := v)
          (s := counted (.confirmed l0 t0 (some (.key k))) s'.apertures.records s) enabled idle empty half'
          ((accentFor_eq half').trans accented.symm) levelled note (by rw [values, note]; rfl) ahead
        refine (sent.trans opened).trans ?_
        cases h <;> rfl
    case closed =>
      have sent := takeSampledLine_of_alone taken alone (channelTransition_closed absent many)
      refine ⟨fun h place control => ?control, fun p pedal => ?pedal,
        fun low high k mapped quiet => ⟨fun other => ?other, fun own => ?own⟩⟩
      case control =>
        obtain ⟨x, taken, received⟩ := sendEvent_closed_of_control m tc (counted _ s'.apertures.records s) control
        refine ⟨x, taken, (sent.trans received).trans ?_⟩
        cases h <;> rfl
      case pedal =>
        obtain ⟨x, taken, received⟩ := sendEvent_closed_of_pedal m tc (counted _ s'.apertures.records s) pedal
        refine ⟨x, taken, (sent.trans received).trans ?_⟩
        cases p <;> rfl
      case other =>
        subst mapped
        exact sent.trans (sendEvent_closed_of_other tc low high (s := counted _ s'.apertures.records s) quiet other)
      case own =>
        subst mapped
        obtain ⟨p, stored, received⟩ :=
          sendEvent_closed_of_owner tc low high (s := counted _ s'.apertures.records s) quiet own
        exact ⟨p, stored, sent.trans received⟩

end Sys2Proof.Machine
end

section
/-! The notes of the roll and the apertures they answer to (03_the_aperture_table R37, 05_the_key_table R93): a state
that a close does not keep. -/

namespace Sys2Proof.Machine

/-! ### A control channel with a mapping (R37) -/

/-- A note of the roll channel 0, with no release time. -/
def noteOfChannel0 : Note where
  claimant := rollOwner 0
  sound := 0
  level := 0
  release := none

/-- A LOCKED part in which channel 0, a control channel, is OPEN with a key mapped, and that key waits with a note
of channel 0. An APERTURE_CLOSE of the channel stands at the head of the intake. -/
def mappedControl : State :=
  { State.reset with
    loader := { ImageLoader.atReset with ready := true }
    tracker := { Tracker.atReset with mode := .locked }
    apertures := { ApertureTable.atReset with
      records := ApertureTable.atReset.records.set 0 { blind := false, life := .opened 0 0 (some (.key 0)) } }
    keys := State.reset.keys.set 0 { KeyRecord.atReset with phase := .waiting noteOfChannel0 0 }
    port := { HostPort.atReset with intake := [requestFrame 0x0D 0 [0]] }
    pending := [.apertureClose 0] }

theorem mappedControl_phase (k : Key) :
    (mappedControl.key k).phase = if 0 = k then .waiting noteOfChannel0 0 else .idle := by
  revert k
  decide

theorem mappedControl_arrive : ({ mappedControl with pending := [] } : State).arrive 0 =
    { mappedControl with pending := [] } := by
  refine State.arrive_of_quiet _ 0 (fun f head => ?_) (by decide)
  cases head
  decide

theorem mappedControl_rollNotesSafe : RollNotesSafe mappedControl := by
  intro k
  rw [mappedControl_phase]
  split
  · rename_i same
    subst same
    refine ⟨rfl, fun n owning _ _ => ⟨0, ?_, by decide⟩⟩
    cases owning
    rfl
  · exact ⟨rfl, fun n owning => by cases owning⟩

/-! ### Its close (R49, R50, R55) -/

/-- Refutes O16: the notes clause is not kept from every state that it and the apertures clause allow. They allow a
mapping on a control channel (R37 gives one to note channels alone); such a channel's close goes to the half context,
and the note is left with neither an open aperture nor a release time. -/
theorem not_rollNotesAnswerToApertures : ¬ Obligations.RollNotesAnswerToApertures := by
  rintro ⟨-, keeps⟩
  obtain ⟨close, -⟩ := apertureCloseCompletes
  obtain ⟨channel, -⟩ := close _ _ 0 _ 0 mappedControl_arrive rfl
  obtain ⟨-, opened⟩ := channel 0 _ _ ⟨rfl, by decide, rfl⟩ rfl rfl
  obtain ⟨control, -⟩ := opened (some (.key 0)) (.inl ⟨0, 0, by decide⟩)
  obtain ⟨x, -, stepped⟩ := control .bass 0 (.inl ⟨by decide, rfl, rfl⟩)
  have locked : AperturesSafe mappedControl := fun unlocked => absurd rfl unlocked
  obtain ⟨-, answers⟩ := keeps mappedControl _ locked mappedControl_rollNotesSafe stepped 0
  have owning : owningNote (mappedControl.key 0).phase = some noteOfChannel0 := by
    rw [mappedControl_phase]
    rfl
  obtain ⟨c, owner, isOpen⟩ := answers noteOfChannel0 owning rfl rfl
  have channels : ∀ d : Channel, rollOwner 0 = rollOwner d → d = 0 := by decide
  obtain rfl := channels c owner
  have emptied : openOn 0 .empty = true := isOpen
  cases emptied

end Sys2Proof.Machine
end

section
/-! EXPRESSION_STEP and EXPR_SET (04_expression R64, R65, R76). -/

namespace Sys2Proof.Machine

/-! ### The ramp of one half (R65) -/

section
variable {slow fast : Nat} {c : HalfContext}

/-- With no crescendo the level rises to its base at the slow rate. -/
theorem rampContext_of_below (still : c.crescendo = .none) (below : c.effective < 16 * c.base) :
    (rampContext slow fast c).effective = min (16 * c.base) (c.effective + slow) := by
  simp [rampContext, still, below]

/-- With no crescendo the level falls to its base at the slow rate. -/
theorem rampContext_of_above (still : c.crescendo = .none) (above : 16 * c.base ≤ c.effective) :
    (rampContext slow fast c).effective = max (16 * c.base) (c.effective - slow) := by
  simp only [rampContext, still, if_true, reduceCtorEq, or_self, if_false, if_neg (Nat.not_lt.mpr above)]
  rcases Nat.lt_or_eq_of_le above with strict | equal
  · rw [if_pos strict]
  · rw [if_neg (by omega), ← equal]
    omega

/-- In a crescendo the level rises to the top of its range, at the rate of the crescendo's state. -/
theorem rampContext_of_rising {rate : Nat} (rising : c.crescendo ≠ .none)
    (chosen : (if c.crescendo = .fast ∨ c.crescendo = .both then fast else slow) = rate)
    (inRange : c.effective ≤ 16368) :
    (rampContext slow fast c).effective = min 16368 (c.effective + rate) := by
  simp only [rampContext, if_neg rising, chosen, if_neg (Nat.not_lt.mpr inRange)]
  split
  · rfl
  · omega

end

/-! ### EXPRESSION_STEP (R64) -/

theorem rampBoth_half (s : State) (h : Half) :
    (rampBoth s).half h = rampContext (s.setting .slowRate) (s.setting .fastRate) (s.half h) := by
  cases h <;> rfl

/-- The state in which the contexts are ramped: the next step stands 1000 us after the due one. -/
def stepPlanned (s : State) (due : Time) : State :=
  { s with expression := { s.expression with nextStep := some (due + 1000) } }

theorem stepPlanned_half (s : State) (due : Time) (h : Half) : (stepPlanned s due).half h = s.half h := by
  cases h <;> rfl

theorem stepExpression_of_due {s : State} {due : Time} (running : s.expression.nextStep = some due)
    (come : reached s.clock due) : stepExpression s = rampBoth (stepPlanned s due) := by
  rw [stepExpression, running]
  exact if_pos come

/-- Settles O30: the ramp of each half, with one case for each way R65 gives the target and the rate. -/
theorem expressionStepCompletes : Obligations.ExpressionStepCompletes := by
  rintro s a t due rfl running come
  have stepped : exec (.expressionStep t) s = .next (rampBoth (stepPlanned (s.arrive t) due)) :=
    congrArg _ (stepExpression_of_due running come)
  refine ⟨_, stepped, rfl, fun h => ?_⟩
  rw [rampBoth_half, stepPlanned_half]
  exact ⟨rampContext_frame _ _ _, rampContext_of_below, rampContext_of_above,
    fun slow => rampContext_of_rising (by simp [slow]) (by simp only [slow]; rfl),
    fun fast => rampContext_of_rising (by rcases fast with fast | fast <;> simp [fast]) (if_pos fast)⟩

/-! ### The mode and the value of EXPR_SET (R76) -/

theorem halfOfNumber_of_other {n : Nat} (other : 2 ≤ n) : halfOfNumber n = none := by
  obtain ⟨m, rfl⟩ := Nat.exists_eq_add_of_le' other
  rfl

section
variable {value : BitVec 16} (c : HalfContext)

theorem setMode_fixed (level : value.toNat ≤ 1023) :
    setMode 1 value.toInt c = some { c with mode := .fixed, fixedLevel := value.toNat } := by
  have same : value.toInt = value.toNat := BitVec.toInt_eq_toNat_of_lt (by omega)
  rw [same]
  exact if_pos (by omega)

/-- A value above 1023 is no level: it reads as a greater number or as a negative one. -/
theorem setMode_fixed_none (above : 1023 < value.toNat) : setMode 1 value.toInt c = none := by
  refine if_neg fun ⟨nonneg, level⟩ => ?_
  have same := BitVec.toInt_eq_toNat_cond value
  split at same <;> omega

theorem setMode_offset (low : -1023 ≤ value.toInt) (high : value.toInt ≤ 1023) :
    setMode 2 value.toInt c = some { c with mode := .offset, offset := value.toInt } := if_pos ⟨low, high⟩

theorem setMode_offset_none (out : value.toInt < -1023 ∨ 1023 < value.toInt) : setMode 2 value.toInt c = none :=
  if_neg (by omega)

theorem setMode_none_of_other {mode : Nat} (other : 3 ≤ mode) (v : Int) : setMode mode v c = none := by
  obtain ⟨m, rfl⟩ := Nat.exists_eq_add_of_le' other
  rfl

end

/-! ### EXPR_SET (R76) -/

/-- The arguments of an EXPR_SET: the half, the mode and the value. -/
def exprSetArguments (half mode : Byte) (value : BitVec 16) : List Byte := [half, mode] ++ field16 value.toNat

@[simp] theorem exprSetArguments_half (half mode : Byte) (value : BitVec 16) :
    argByte (exprSetArguments half mode value) 0 = half.toNat := rfl

@[simp] theorem exprSetArguments_mode (half mode : Byte) (value : BitVec 16) :
    argByte (exprSetArguments half mode value) 1 = mode.toNat := rfl

@[simp] theorem exprSetArguments_value (half mode : Byte) (value : BitVec 16) :
    signedValue 16 (arg16 (exprSetArguments half mode value) 2) = value.toInt := by
  have read : arg16 (exprSetArguments half mode value) 2 = value.toNat :=
    arg16_append [half, mode] [] value.toNat value.isLt
  rw [read, signedValue, BitVec.ofNat_toNat, BitVec.setWidth_eq]

section
variable {half mode : Byte} {value : BitVec 16} {s a : State} {t : Time} {tag : Byte}

theorem actExprSet_of_set {h : Half} {c : HalfContext} (named : halfOfNumber half.toNat = some h)
    (set : setMode mode.toNat value.toInt (s.half h) = some c) :
    actExprSet (exprSetArguments half mode value) s = answerOk (s.setHalf h c) [] := by
  simp [actExprSet, named, set]

/-- A half that no number names is refused, and so is a mode or a value that no context takes. -/
theorem actExprSet_of_refused (refused : halfOfNumber half.toNat = none ∨
      ∀ c, setMode mode.toNat value.toInt c = none) :
    actExprSet (exprSetArguments half mode value) s = refuse s .badArgument := by
  rcases refused with unnamed | unset
  · simp [actExprSet, unnamed]
  · cases named : halfOfNumber half.toNat <;> simp [actExprSet, named, unset]

/-- An EXPR_SET that is taken replaces the context of its half and is answered OK. -/
theorem exec_exprSet_of_set {h : Half} {c : HalfContext} (arrived : s.arrive t = a)
    (head : RequestAtHead a 0x10 tag (exprSetArguments half mode value))
    (named : halfOfNumber half.toNat = some h) (set : setMode mode.toNat value.toInt (a.half h) = some c) :
    exec (.exprSet t) s = .next { a.setHalf h c with port := answeredPort a.port 0x10 tag .ok [] } := by
  rw [← State.dropHead_half] at set
  rw [exec_of_request (act := actExprSet) rfl arrived head rfl, actExprSet_of_set named set]
  cases h <;> rfl

end

/-- Settles O31: each mode with its value in range, and each way the request is out of range. -/
theorem exprSetCompletes : Obligations.ExprSetCompletes := by
  intro s a t tag half mode value arrived head
  refine ⟨fun h named => ⟨?roll, ?fixed, ?offset⟩, fun out => ?refused⟩
  case roll =>
    rintro rfl
    exact exec_exprSet_of_set arrived head named rfl
  case fixed =>
    rintro rfl level
    exact exec_exprSet_of_set arrived head named (setMode_fixed _ level)
  case offset =>
    rintro rfl low high
    exact exec_exprSet_of_set arrived head named (setMode_offset _ low high)
  case refused =>
    refine exec_of_answer rfl arrived head rfl (actExprSet_of_refused ?_)
    rcases out with noHalf | noMode | ⟨rfl, above⟩ | ⟨rfl, outside⟩
    · exact .inl (halfOfNumber_of_other noHalf)
    · exact .inr fun c => setMode_none_of_other c noMode _
    · exact .inr fun c => setMode_fixed_none c above
    · exact .inr fun c => setMode_offset_none c outside

end Sys2Proof.Machine
end

section
/-! The performance clock coming to a command's time: hold timeouts on the way and KEY_FIND before it
(05_the_key_table R94a, R105a; log 3 and 4). -/

namespace Sys2Proof.Machine

/-! ### The earliest timeout (R94a) -/

/-- A key's timeout taken into account in the search for the earliest one. -/
def earlierTimeout (s : State) (within : Nat) (best : Option (Nat × Key)) (k : Key) : Option (Nat × Key) :=
  match timeoutOffset s k with
  | none => best
  | some o =>
    if within < o then best
    else match best with
      | none => some (o, k)
      | some b => if o < b.1 then some (o, k) else best

theorem firstTimeout_eq (s : State) (within : Nat) :
    firstTimeout s within = allKeys.foldl (earlierTimeout s within) none := rfl

theorem earlierTimeout_of_late {s : State} {within : Nat} {k : Key}
    (late : ∀ o, timeoutOffset s k = some o → within < o) (best : Option (Nat × Key)) :
    earlierTimeout s within best k = best := by
  unfold earlierTimeout
  cases offset : timeoutOffset s k with
  | none => rfl
  | some o => exact if_pos (late o offset)

theorem foldl_earlierTimeout_of_late {s : State} {within : Nat} {keys : List Key}
    (late : ∀ k ∈ keys, ∀ o, timeoutOffset s k = some o → within < o) (best : Option (Nat × Key)) :
    keys.foldl (earlierTimeout s within) best = best := by
  induction keys with
  | nil => rfl
  | cons k keys ih =>
    rw [List.foldl_cons, earlierTimeout_of_late (late k List.mem_cons_self),
      ih fun j later => late j (List.mem_cons_of_mem k later)]

theorem firstTimeout_of_late {s : State} {within : Nat} (late : ∀ k o, timeoutOffset s k = some o → within < o) :
    firstTimeout s within = none :=
  foldl_earlierTimeout_of_late (fun k _ => late k) none

/-- The one key whose timeout can come is the first of all to be timed out. -/
theorem firstTimeout_of_only {s : State} {within o : Nat} {k : Key} (offset : timeoutOffset s k = some o)
    (near : o ≤ within) (only : ∀ j, j ≠ k → timeoutOffset s j = none) : firstTimeout s within = some (o, k) := by
  obtain ⟨front, back, split⟩ := List.append_of_mem (List.mem_finRange k)
  have once : k ∉ front ∧ k ∉ back := by
    have nodup : (front ++ k :: back).Nodup := split ▸ List.nodup_finRange 88
    obtain ⟨-, tail, apart⟩ := List.nodup_append.mp nodup
    exact ⟨fun inFront => apart k inFront k List.mem_cons_self rfl, (List.nodup_cons.mp tail).1⟩
  have silent : ∀ keys : List Key, k ∉ keys → ∀ best, keys.foldl (earlierTimeout s within) best = best :=
    fun keys absent => foldl_earlierTimeout_of_late fun j present o' due => by
      rw [only j fun same => absent (same ▸ present)] at due
      cases due
  have taken : earlierTimeout s within none k = some (o, k) := by
    rw [earlierTimeout, offset]
    exact if_neg (Nat.not_lt.mpr near)
  rw [firstTimeout_eq, allKeys, split, List.foldl_append, List.foldl_cons, silent front once.1, taken,
    silent back once.2]

/-! ### When a key is timed out (R94a) -/

section
variable {s : State} {k : Key} {n : Note} {v : StrikeValues} {l : Launch} {d : Nat} {start : Time}

theorem holdDue_of_hold (hold : (s.key k).phase = .hold n v l d start) : holdDue s k =
    if s.setting .holdTimeout = 0 ∨ (s.key k).flags.holdExempt = true then none
    else some (timePlus start (1000000 * (s.setting .holdTimeout : Int))) := by
  rw [holdDue, hold]

theorem holdDue_of_subject (hold : (s.key k).phase = .hold n v l d start) (limited : s.setting .holdTimeout ≠ 0)
    (subject : (s.key k).flags.holdExempt = false) :
    holdDue s k = some (timePlus start (1000000 * (s.setting .holdTimeout : Int))) := by
  rw [holdDue_of_hold hold, if_neg (not_or.mpr ⟨limited, by rw [subject]; exact Bool.false_ne_true⟩)]

theorem holdDue_of_other (other : isHold (s.key k).phase = false) : holdDue s k = none := by
  unfold holdDue
  split
  · rename_i hold
    rw [hold] at other
    cases other
  · rfl

/-- A key with a timeout is in HOLD and not exempt, with the setting on. -/
theorem hold_of_holdDue {due : Time} (timed : holdDue s k = some due) :
    ∃ n v l d start, (s.key k).phase = .hold n v l d start ∧ s.setting .holdTimeout ≠ 0 ∧
      (s.key k).flags.holdExempt = false ∧ due = timePlus start (1000000 * (s.setting .holdTimeout : Int)) := by
  unfold holdDue at timed
  split at timed
  · rename_i n v l d start hold
    split at timed
    · cases timed
    · rename_i on
      obtain ⟨limited, subject⟩ := not_or.mp on
      cases timed
      exact ⟨n, v, l, d, start, hold, limited, Bool.eq_false_iff.mpr subject, rfl⟩
  · cases timed

theorem timeoutOffset_of_ahead {due : Time} (timed : holdDue s k = some due) (ahead : ¬ reached s.clock due) :
    timeoutOffset s k = some (due - s.clock).toNat := by
  rw [timeoutOffset, timed]
  exact if_neg ahead

theorem timeoutOffset_of_untimed (untimed : holdDue s k = none) : timeoutOffset s k = none := by
  rw [timeoutOffset, untimed]

theorem holdDue_of_timeoutOffset {o : Nat} (offset : timeoutOffset s k = some o) : ∃ due, holdDue s k = some due := by
  unfold timeoutOffset at offset
  split at offset
  · rename_i due timed
    exact ⟨due, timed⟩
  · cases offset

/-- A timeout with room for its notice (R94a). -/
theorem timeOutKey_of_hold (hold : (s.key k).phase = .hold n v l d start) (room : s.port.notices.length < 32) :
    timeOutKey k s = { s with
      keys := s.keys.set k { s.key k with phase := .damp (gapEndNow s k) }
      port := { s.port with notices := s.port.notices ++
        [{ kind := .keyHoldTimeout, lost := false, time := s.clock
           fields := [byteOf (keyNumber k)] ++ fieldOwner (some n.claimant) ++ fieldTime start }] } } := by
  rw [timeOutKey, hold]
  exact State.raise_of_room (s.setPhase k _) _ _ room

end

theorem timePlus_distance (now due : Time) : timePlus now ((due - now).toNat : Int) = due := by
  rw [timePlus, BitVec.ofInt_natCast, BitVec.ofNat_toNat, BitVec.setWidth_eq, BitVec.add_comm,
    BitVec.sub_add_cancel]

/-- The clock's coming when one timeout lies on the way (log 4). -/
theorem arriveLoop_of_timeout {m : Nat} {t : Time} {s : State} {o : Nat} {k : Key}
    (first : firstTimeout s (t - s.clock).toNat = some (o, k)) :
    arriveLoop (m + 1) t s = arriveLoop m t (settling none (timeOutKey k) (s.atTime (timePlus s.clock o))) := by
  rw [arriveLoop, first]

theorem arriveLoop_of_no_timeout {m : Nat} {t : Time} {s : State} (untimed : ∀ k, holdDue s k = none) :
    arriveLoop (m + 1) t s = s.atTime t := by
  rw [arriveLoop, firstTimeout_of_late fun k o offset => by
    rw [timeoutOffset_of_untimed (untimed k)] at offset
    cases offset]

/-! ### KEY_FIND (R105a) -/

theorem idle_of_keyFind {s : State} {tag cueId : Byte} (head : RequestAtHead s 0x1B tag [cueId]) :
    idle s = { s with
      port := answeredPort s.port 0x1B tag .ok
        (fieldList ((keysOf (cueOwner cueId) s).map fun k => [byteOf (keyNumber k)])) } := by
  have allowed : argumentsAllowed 0x1B [cueId].length = true := rfl
  obtain ⟨byte, fits⟩ := argumentsAllowed_bounds allowed
  rw [idle, serveRequest_of_head s 0x1B false actKeyFind tag [cueId] head byte fits allowed]
  rfl

/-- The clock comes to a time after the first KEY_FIND has been answered as it would from there (log 3). -/
theorem State.arrive_of_keyFind {s : State} {f : List Byte} (t : Time) (head : s.port.intake.head? = some f)
    (served : (idle s).port.intake = s.port.intake.tail) : s.arrive t = (idle s).arrive t := by
  obtain ⟨rest, intake⟩ := List.head?_eq_some_iff.mp head
  rw [State.arrive, State.arrive, served, intake]
  rfl

/-! ### The clock's coming (log 3 and 4) -/

/-- Settles O3: no timeout within the way, one timeout on the way, a KEY_FIND before it. -/
theorem clockArrival : Obligations.ClockArrival := by
  refine ⟨fun s t other ahead => ?quiet,
    fun s t due k n v l d start other hold limited subject dueAt ahead near only quiet room =>
      ?timeout,
    fun s t tag cueId head => ?keyFind⟩
  case quiet =>
    refine s.arrive_of_quiet t other (firstTimeout_of_late fun k o offset => ?_)
    obtain ⟨due, timed⟩ := holdDue_of_timeoutOffset offset
    obtain ⟨n, v, l, d, start, hold, limited, subject, rfl⟩ := hold_of_holdDue timed
    obtain ⟨notCome, beyond⟩ := ahead k n v l d start hold limited subject
    rw [timeoutOffset_of_ahead timed notCome] at offset
    cases offset
    exact beyond
  case timeout =>
    have timed : holdDue s k = some due := by
      rw [holdDue_of_subject hold limited subject, dueAt]
    have first : firstTimeout s (t - s.clock).toNat = some ((due - s.clock).toNat, k) :=
      firstTimeout_of_only (timeoutOffset_of_ahead timed ahead) near fun j foreign =>
        timeoutOffset_of_untimed (holdDue_of_other (only j foreign))
    have taken := timeOutKey_of_hold (s := s.atTime due) hold room
    have settled : settling none (timeOutKey k) (s.atTime due) = timeOutKey k (s.atTime due) :=
      settling_of_quiet _ _ (by rw [taken]) (by rw [taken]; exact quiet)
    have untimed : ∀ j, holdDue (timeOutKey k (s.atTime due)) j = none := fun j => by
      refine holdDue_of_other ?_
      have keys : (timeOutKey k (s.atTime due)).key j =
          if k = j then { s.key k with phase := .damp (gapEndNow (s.atTime due) k) } else s.key j := by
        rw [taken]
        exact s.key_setKey k j _
      rw [keys]
      split
      · rfl
      · rename_i foreign
        exact only j (Ne.symm foreign)
    rw [State.arrive, serveKeyFinds_of_other _ s other, arriveLoop_of_timeout first, timePlus_distance, settled,
      arriveLoop_of_no_timeout untimed, taken]
    rfl
  case keyFind =>
    have found := idle_of_keyFind head
    obtain ⟨-, -, first⟩ := head
    rw [s.arrive_of_keyFind t first (by rw [found]; rfl), found]
    rfl

end Sys2Proof.Machine
end

section
/-! An event on one key and the one examination of the head that follows it (05_the_key_table,
06_strike_computation R117, R118, R132). -/

namespace Sys2Proof.Machine

/-! ### What the examination adds to an event (R132) -/

section
variable (placed : Option Key) (f : State → State) (s : State)

theorem settling_port : (settling placed f s).port = (f s).port := by
  obtain ⟨keys, queue, e, -⟩ := settling_frame placed f s
  rw [e]

theorem settling_entries : (settling placed f s).queue.entries.Sublist (f s).queue.entries := by
  obtain ⟨keys, queue, e, kept, -⟩ := settling_frame placed f s
  rw [e]
  exact kept

/-- The examination launches PENDING keys and leaves every other key alone. -/
theorem settling_key {j : Key} (still : isPending ((f s).key j).phase = false) :
    (settling placed f s).key j = (f s).key j := by
  obtain ⟨keys, queue, e, -, launched⟩ := settling_frame placed f s
  rw [e]
  rcases launched j with same | ⟨waits, -⟩
  · exact same
  · rw [still] at waits
    cases waits

end

section
variable {k : Key} {f : State → State} {s : State}

/-- An event that leaves the queue as it was needs no examination while the head does not wait. -/
theorem settling_of_same_queue (same : (f s).queue = s.queue) (quiet : s.queue.status ≠ .waiting) :
    settling none f s = f s :=
  settling_of_quiet f s (by rw [same]) (by rw [same]; exact quiet)

/-- The same holds of an event that takes a note on a key, with another key at the head. -/
theorem settling_of_other_head (same : (f s).queue = s.queue) (quiet : s.queue.status ≠ .waiting)
    (other : ∀ e, s.queue.entries.head? = some e → e.key ≠ k) : settling (some k) f s = f s := by
  refine if_neg ?_
  rw [same]
  rintro (changed | waits | ⟨-, atHead⟩)
  · exact changed rfl
  · exact quiet waits
  · obtain ⟨e, head, key⟩ := Option.map_eq_some_iff.mp atHead
    exact other e head key

/-- A key placed alone in the queue, its planned launch to come, makes the head TIMED (R118). -/
theorem settling_of_alone {e : QueueEntry} (alone : (f s).queue.entries = [e]) (own : e.key = k)
    (ahead : ¬ reached (f s).clock e.planned) : settling (some k) f s = (f s).setStatus .timed := by
  have examined : settling (some k) f s = examineHead (f s) := by
    refine if_pos (.inr (.inr ⟨rfl, ?_⟩))
    rw [alone, ← own]
    rfl
  rw [examined, examineHead, alone]
  show examineLoop 2 (f s) = _
  rw [examineLoop, alone]
  exact if_neg ahead

/-- A note entering PENDING with no other key queued stands TIMED at the head (R86, R117, R118). -/
theorem settling_enterPending {u : State} {n : Note} {v : StrikeValues} (entered : f s = enterPending k n v u)
    (free : withoutKey k u.queue.entries = []) (ahead : ¬ reached u.clock v.planned) :
    settling (some k) f s = { u with
      keys := u.keys.set k { u.key k with phase := .pending n v }
      queue := { entries := [{ key := k, planned := v.planned }], status := .timed } } := by
  have entries : (f s).queue.entries = [{ key := k, planned := v.planned }] := by
    rw [entered, enterPending, free]
    rfl
  rw [settling_of_alone entries rfl (by rw [entered]; exact ahead), entered, enterPending, free]
  rfl

end

theorem withoutKey_singleton (k : Key) (planned : Time) : withoutKey k [{ key := k, planned := planned }] = [] :=
  List.filter_eq_nil_iff.mpr fun e only => by
    rw [List.mem_singleton.mp only]
    exact fun differs => of_decide_eq_true differs rfl

/-! ### What an event on one key leaves alone -/

/-- What an event on a key, with the examination of the head after it, leaves alone: every other key that does not
wait for launch, and everything but the keys, the strike queue and the port. -/
structure KeyFrame (k : Key) (s s' : State) : Prop where
  others : ∀ j : Key, j ≠ k → isPending (s.key j).phase = false → s'.key j = s.key j
  rest : ∃ keys queue port, s' = { s with keys := keys, queue := queue, port := port }

namespace KeyFrame

variable {k : Key} {s s' s'' : State}

theorem of_update (queue : StrikeQueue) (port : HostPort) (r : KeyRecord) (s : State) :
    KeyFrame k s { s with keys := s.keys.set k r, queue := queue, port := port } where
  others := fun j foreign _ => s.key_setKey_ne k j r (Ne.symm foreign)
  rest := ⟨_, _, _, rfl⟩

theorem refl (s : State) : KeyFrame k s s := ⟨fun _ _ _ => rfl, _, _, _, rfl⟩

theorem trans (h : KeyFrame k s s') (h' : KeyFrame k s' s'') : KeyFrame k s s'' where
  others := fun j foreign still => by
    have same := h.others j foreign still
    rw [h'.others j foreign (by rw [same]; exact still), same]
  rest := by
    obtain ⟨_, _, _, rfl⟩ := h.rest
    obtain ⟨keys, queue, port, e⟩ := h'.rest
    exact ⟨keys, queue, port, e⟩

theorem setKey (r : KeyRecord) (s : State) : KeyFrame k s (s.setKey k r) := of_update _ _ r s

theorem setPhase (p : KeyPhase) (s : State) : KeyFrame k s (s.setPhase k p) := of_update _ _ _ s

theorem setPort (p : HostPort) (s : State) : KeyFrame k s (s.setPort p) := ⟨fun _ _ _ => rfl, _, _, _, rfl⟩

theorem dequeue (s : State) : KeyFrame k s (dequeue k s) := ⟨fun _ _ _ => rfl, _, _, _, rfl⟩

theorem raise (kind : NoticeKind) (fields : List Byte) (s : State) : KeyFrame k s (s.raise kind fields) where
  others := fun j _ _ => s.raise_key kind fields j
  rest := by
    unfold State.raise
    split <;> exact ⟨_, _, _, rfl⟩

theorem settling {f : State → State} (placed : Option Key) (h : KeyFrame k s (f s)) :
    KeyFrame k s (settling placed f s) := by
  refine h.trans ⟨fun j _ still => settling_key placed f s still, ?_⟩
  obtain ⟨keys, queue, e, -⟩ := settling_frame placed f s
  exact ⟨keys, queue, _, e⟩

theorem retireKey (reason : RetireReason) (s : State) : KeyFrame k s (retireKey k reason s) :=
  (setPhase _ s).trans ((dequeue _).trans (raise _ _ _))

theorem endStrike (s : State) : KeyFrame k s (endStrike k s) := by
  rcases endStrike_spec k s with e | ⟨p, e⟩ | ⟨-, p, o, e⟩ <;> rw [e]
  · exact refl s
  · exact setPhase p s
  · exact (setPhase p s).trans (raise _ _ _)

/-- A request on a key: its frame leaves the intake and its answer joins the responses. -/
theorem answered {code tag : Byte} {result : Result} {data : List Byte} (h : KeyFrame k s.dropHead s') :
    KeyFrame k s (s'.respond code tag result data) :=
  (setPort _ s).trans (h.trans (setPort _ s'))

theorem contexts (h : KeyFrame k s s') : s'.contexts = s.contexts := by obtain ⟨_, _, _, rfl⟩ := h.rest; rfl
theorem heat (h : KeyFrame k s s') : s'.heat = s.heat := by obtain ⟨_, _, _, rfl⟩ := h.rest; rfl
theorem hub (h : KeyFrame k s s') : s'.hub = s.hub := by obtain ⟨_, _, _, rfl⟩ := h.rest; rfl
theorem voicing (h : KeyFrame k s s') : s'.voicing = s.voicing := by obtain ⟨_, _, _, rfl⟩ := h.rest; rfl
theorem pedals (h : KeyFrame k s s') : s'.pedals = s.pedals := by obtain ⟨_, _, _, rfl⟩ := h.rest; rfl
theorem cue (h : KeyFrame k s s') : s'.cue = s.cue := by obtain ⟨_, _, _, rfl⟩ := h.rest; rfl

end KeyFrame

/-! ### Drive (R80) -/

/-- Only a key in STRIKE or HOLD can drive (R80). -/
theorem driveLevel_of_silent {s : State} {k : Key} (silent : phaseNumber (s.key k).phase ≠ 2)
    (unheld : isHold (s.key k).phase = false) : driveLevel s k = 0 := by
  unfold driveLevel recordDrive
  split
  · rename_i strike
    rw [strike] at silent
    exact absurd rfl silent
  · rename_i hold
    rw [hold] at unheld
    cases unheld
  · rfl

/-! ### Commands that name a key by its number -/

theorem onKey_keyNumber (k : Key) (f : Key → State → State) (s : State) : onKey (keyNumber k) f s = f k s := by
  rw [onKey, keyOfNumber_keyNumber]

end Sys2Proof.Machine
end

section
/-! The timers of a key: the end of a strike, the gap end and the release time (05_the_key_table R90 to R94,
06_strike_computation R125 to R127). -/

namespace Sys2Proof.Machine

/-! ### The end of a strike (R90) -/

section
variable {k : Key} {n : Note} {v : StrikeValues} {l : Launch} {sensed : Bool} {e : Time} {m : Option Note}
  {s : State}

theorem releaseDue_of_come {r : Time} (stored : n.release = some r) (come : reached s.clock r = true) :
    releaseDue s n = true := by
  rw [releaseDue, stored]
  exact come

theorem releaseDue_of_ahead (ahead : ∀ r, n.release = some r → ¬ reached s.clock r = true) :
    releaseDue s n = false := by
  unfold releaseDue
  cases stored : n.release with
  | none => rfl
  | some r => exact Bool.eq_false_iff.mpr (ahead r stored)

theorem endStrike_of_successor {x : Note} (strike : (s.key k).phase = .strike n v l sensed e (some x)) :
    endStrike k s = s.setPhase k (.waiting x (gapEndNow s k)) := by
  rw [endStrike, strike]

theorem endStrike_of_released (strike : (s.key k).phase = .strike n v l sensed e none)
    (due : releaseDue s n = true) : endStrike k s = s.setPhase k (.damp (gapEndNow s k)) := by
  rw [endStrike, strike]
  exact if_pos due

theorem endStrike_of_hot (strike : (s.key k).phase = .strike n v l sensed e none)
    (playing : releaseDue s n = false) (hot : s.heat.max ≤ s.heatOf k) : endStrike k s =
      raiseThermal k 1 (some n.claimant) (s.setPhase k (.damp (gapEndNow s k))) := by
  rw [endStrike, strike]
  simp only [playing, hot, Bool.false_eq_true, if_false, if_true]

theorem endStrike_of_cool (strike : (s.key k).phase = .strike n v l sensed e none)
    (playing : releaseDue s n = false) (cool : s.heatOf k < s.heat.max) : endStrike k s =
      s.setPhase k (.hold n v l (holdDutyFor s k l (driveLevel s k)) s.clock) := by
  rw [endStrike, strike]
  simp only [playing, Nat.not_le.mpr cool, Bool.false_eq_true, if_false]

/-- A strike that ends changes the phase of its key's record, and not to PENDING. -/
theorem endStrike_key (strike : (s.key k).phase = .strike n v l sensed e m) :
    ∃ p, isPending p = false ∧ (endStrike k s).key k = { s.key k with phase := p } := by
  have phased : ∀ p, (s.setPhase k p).key k = { s.key k with phase := p } := s.key_setPhase_same k
  cases m with
  | some x => exact ⟨_, rfl, by rw [endStrike_of_successor strike, phased]⟩
  | none =>
    cases due : releaseDue s n with
    | true => exact ⟨_, rfl, by rw [endStrike_of_released strike due, phased]⟩
    | false =>
      rcases Nat.lt_or_ge (s.heatOf k) s.heat.max with cool | hot
      · exact ⟨_, rfl, by rw [endStrike_of_cool strike due cool, phased]⟩
      · exact ⟨_, rfl, by rw [endStrike_of_hot strike due hot, raiseThermal, State.raise_key, phased]⟩

theorem nominalHold_le (s : State) (k : Key) : nominalHold s k ≤ (s.voice k).holdDuty := by
  unfold nominalHold
  split <;> omega

theorem holdDutyFor_le (s : State) (k : Key) (l : Launch) (present : Nat) :
    holdDutyFor s k l present ≤ (s.voice k).holdDuty := by
  unfold holdDutyFor
  split
  · exact (limitedClaim_le s present _).1.trans (nominalHold_le s k)
  · exact nominalHold_le s k

/-! ### STRIKE_END_TIMER_EXPIRY (R125 to R127) -/

/-- The miss of a sensed strike counted. -/
def missCounted (sensed : Bool) (k : Key) (s : State) : State :=
  s.setKey k { s.key k with missCount := (s.key k).missCount + if sensed then 1 else 0 }

/-- What the end timer does to a strike, but for the examination of the head (R125). -/
def timedEnd (sensed : Bool) (k : Key) : State → State := if sensed then missStrike k else endStrike k

theorem expireStrike_of_come (strike : (s.key k).phase = .strike n v l sensed e m)
    (come : reached s.clock e = true) : expireStrike k s = settling none (timedEnd sensed k) s := by
  rw [expireStrike, strike]
  exact if_pos come

theorem timedEnd_of_third (isSensed : sensed = true) (third : 2 ≤ (s.key k).missCount) :
    timedEnd sensed k s = retireKey k .noHammer (missCounted sensed k s) := by
  subst isSensed
  exact if_pos (Nat.add_le_add_right third 1)

theorem timedEnd_of_few (few : sensed = false ∨ (s.key k).missCount < 2) :
    timedEnd sensed k s = endStrike k (missCounted sensed k s) := by
  cases sensed with
  | false =>
    have same : missCounted false k s = s := setKey_same s k
    rw [same]
    rfl
  | true =>
    have early : ¬ 3 ≤ (s.key k).missCount + 1 := by
      have : (s.key k).missCount < 2 := few.resolve_left Bool.noConfusion
      omega
    exact if_neg early

theorem missCounted_key : (missCounted sensed k s).key k =
    { s.key k with missCount := (s.key k).missCount + if sensed then 1 else 0 } := s.key_setKey_same k _

theorem missCounted_owner : (missCounted sensed k s).owner k = s.owner k := by
  rw [State.owner, missCounted_key]
  rfl

theorem missCounted_frame : KeyFrame k s (missCounted sensed k s) := .setKey _ s

theorem missCounted_phase (strike : (s.key k).phase = .strike n v l sensed e m) :
    ((missCounted sensed k s).key k).phase = .strike n v l sensed e m := by
  rw [missCounted_key]
  exact strike

theorem timedEnd_frame : KeyFrame k s (timedEnd sensed k s) := by
  by_cases third : sensed = true ∧ 2 ≤ (s.key k).missCount
  · rw [timedEnd_of_third third.1 third.2]
    exact missCounted_frame.trans (.retireKey _ _)
  · rw [timedEnd_of_few (by rw [not_and_or, Bool.not_eq_true, Nat.not_le] at third; exact third)]
    exact missCounted_frame.trans (.endStrike _)

/-- The end of a strike keeps its key's record but for the miss count and the phase, which is not PENDING. -/
theorem timedEnd_key (strike : (s.key k).phase = .strike n v l sensed e m) :
    ∃ p, isPending p = false ∧ (timedEnd sensed k s).key k =
      { s.key k with phase := p, missCount := (s.key k).missCount + if sensed then 1 else 0 } := by
  by_cases third : sensed = true ∧ 2 ≤ (s.key k).missCount
  · refine ⟨.retired .noHammer, rfl, ?_⟩
    rw [timedEnd_of_third third.1 third.2, retireKey_key, if_pos rfl, missCounted_key]
  · obtain ⟨p, still, ended⟩ := endStrike_key (missCounted_phase strike)
    refine ⟨p, still, ?_⟩
    rw [timedEnd_of_few (by rw [not_and_or, Bool.not_eq_true, Nat.not_le] at third; exact third), ended,
      missCounted_key]

/-- The notice of a retirement with room for it (R104). -/
theorem retireKey_port (reason : RetireReason) (room : s.port.notices.length < 32) :
    (retireKey k reason s).port = { s.port with notices := s.port.notices ++
      [{ kind := .keyRetired, lost := false, time := s.clock
         fields := [byteOf (keyNumber k), byteOf (reasonNumber reason)] ++ fieldOwner (s.owner k) }] } := by
  rw [retireKey, State.raise_of_room (dequeue k (s.setPhase k _)) _ _ room]
  rfl

end

/-- Settles O36: the end of R90, after the miss of R127, and the examination of the head that launches no other key
but PENDING ones. -/
theorem strikeEndTimerEndsStrike : Obligations.StrikeEndTimerEndsStrike := by
  intro s a t e k n v l sensed m arrived strike come
  have run : exec (.strikeEndTimerExpiry t (keyNumber k)) s = .next (settling none (timedEnd sensed k) a) := by
    show Host.Outcome.next (onKey (keyNumber k) expireStrike (s.arrive t)) = _
    rw [onKey_keyNumber, arrived, expireStrike_of_come strike come]
  have frame : KeyFrame k a (settling none (timedEnd sensed k) a) := .settling none timedEnd_frame
  obtain ⟨p, still, ended⟩ := timedEnd_key strike
  have own : (settling none (timedEnd sensed k) a).key k = (timedEnd sensed k a).key k :=
    settling_key none _ a (by rw [ended]; exact still)
  refine ⟨_, run, ?miss, ?flags, ?velocity, frame.others, frame.heat, frame.voicing, frame.pedals, frame.hub,
    fun isSensed third room => ?retired, fun few => ?ends⟩
  case miss => rw [own, ended]
  case flags => rw [own, ended]
  case velocity => rw [own, ended]
  case retired =>
    have retires := timedEnd_of_third (k := k) (s := a) isSensed third
    rw [own, retires, retireKey_key, if_pos rfl, settling_port, retires,
      retireKey_port (s := missCounted sensed k a) .noHammer room, missCounted_owner]
    exact ⟨rfl, rfl⟩
  case ends =>
    have counted := missCounted_phase strike
    rw [own, timedEnd_of_few few]
    refine ⟨fun x successor => ?_, fun r alone stored due => ?_, fun alone playing hot => ?_,
      fun alone playing cool => ?_⟩
    · rw [successor] at counted
      rw [endStrike_of_successor counted, State.key_setPhase_same]
      rfl
    · rw [alone] at counted
      rw [endStrike_of_released counted (releaseDue_of_come stored due), State.key_setPhase_same]
      rfl
    · rw [alone] at counted
      rw [endStrike_of_hot counted (releaseDue_of_ahead playing) hot, raiseThermal, State.raise_key,
        State.key_setPhase_same]
      rfl
    · rw [alone] at counted
      rw [endStrike_of_cool counted (releaseDue_of_ahead playing) cool, State.key_setPhase_same]
      exact ⟨_, rfl, holdDutyFor_le _ k l _⟩

/-! ### GAP_END and RELEASE_TIME (R92, R94) -/

/-- The level a note's first computation uses (R110). -/
theorem firstLevel_eq (s : State) (m : Note) : firstLevel s m =
    { m with level := if m.claimant.source = .cue then min 1023 (m.level * s.contexts.cue.levelScale / 256)
                      else m.level } := by
  rw [firstLevel]
  cases m.claimant.source <;> rfl

section
variable {k : Key} {s : State}

theorem endGap_of_damp {g : Time} (damp : (s.key k).phase = .damp g) (come : reached s.clock g = true) :
    endGap k s = s.setPhase k .idle := by
  rw [endGap, damp]
  exact if_pos come

theorem endGap_of_waiting {m : Note} {g : Time} (waiting : (s.key k).phase = .waiting m g)
    (come : reached s.clock g = true) : endGap k s = settling (some k) (placeNote k m) s := by
  rw [endGap, waiting]
  exact if_pos come

theorem reachRelease_of_due {n : Note} {v : StrikeValues} {l : Launch} {d : Nat} {start : Time}
    (hold : (s.key k).phase = .hold n v l d start) (due : releaseDue s n = true) :
    reachRelease k s = settling none (dampKey k) s := by
  rw [reachRelease, hold]
  exact if_pos due

end

/-- Settles O37: DAMP and REPEAT at their gap end, HOLD at its release time. -/
theorem gapEndAndReleaseTime : Obligations.GapEndAndReleaseTime := by
  refine ⟨fun s a t g k arrived come => ?gap, fun s a t r k n v l d start arrived hold stored come => ?release⟩
  case gap =>
    have run : exec (.gapEnd t (keyNumber k)) s = .next (endGap k a) := by
      show Host.Outcome.next (onKey (keyNumber k) endGap (s.arrive t)) = _
      rw [onKey_keyNumber, arrived]
    rw [run]
    refine ⟨fun damp => ?damp, fun m n v waiting note values ahead empty _ => ?waiting⟩
    case damp =>
      rw [endGap_of_damp damp come]
      rfl
    case waiting =>
      have entered : placeNote k m a = enterPending k n v a := by
        rw [placeNote, firstLevel_eq, ← note, computeStrike, ← values]
      rw [endGap_of_waiting waiting come,
        settling_enterPending entered (by rw [empty]; rfl) ahead]
  case release =>
    have run : exec (.releaseTime t (keyNumber k)) s = .next (settling none (dampKey k) a) := by
      show Host.Outcome.next (onKey (keyNumber k) reachRelease (s.arrive t)) = _
      rw [onKey_keyNumber, arrived, reachRelease_of_due hold (releaseDue_of_come stored come)]
    have damped : (dampKey k a).key k = { a.key k with phase := .damp (gapEndNow a k) } := a.key_setPhase_same k _
    have own : (settling none (dampKey k) a).key k = { a.key k with phase := .damp (gapEndNow a k) } := by
      rw [settling_key none (dampKey k) a (by rw [damped]; rfl), damped]
    have frame : KeyFrame k a (settling none (dampKey k) a) := .settling none (.setPhase _ a)
    refine ⟨_, run, own, driveLevel_of_silent ?_ ?_, frame.others, fun quiet => ?_⟩
    · rw [own]
      exact fun strike => by cases strike
    · rw [own]
      rfl
    · rw [own]
      exact settling_of_same_queue rfl quiet

end Sys2Proof.Machine
end

section
/-! The requests that silence, close, cancel, retire and restore keys: ALL_OFF, QUIET_SET, PLAY_CLOSE, PLAY_CANCEL,
KEY_RETIRE and KEY_RESTORE (05_the_key_table R87, R88, R96, R97, R100 to R104). -/

namespace Sys2Proof.Machine

/-! ### A request with an effect (R195) -/

section
variable {c : Instr} {s a u : State} {t : Time} {code : Nat} {act : List Byte → State → Answer} {tag : Byte}
  {arguments data : List Byte}

/-- A request answered OK leaves its effect on the state without its frame, and its answer. -/
theorem exec_of_effect (served : exec c s = .next (serveRequest code false act (s.arrive t)))
    (arrived : s.arrive t = a) (head : RequestAtHead a code tag arguments)
    (allowed : argumentsAllowed code arguments.length = true)
    (answer : act arguments a.dropHead = answerOk u data) :
    exec c s = .next (u.respond (byteOf code) tag .ok data) := by
  rw [exec_of_request served arrived head allowed, answer]
  rfl

/-- The key an argument byte names. -/
theorem keyOfNumber_argByte {i : Nat} {k : Key} (named : arguments.getD i 0 = byteOf (keyNumber k)) :
    keyOfNumber (argByte arguments i) = some k := by
  rw [argByte, named, byteOf_keyNumber, keyOfNumber_keyNumber]

theorem keyOfNumber_argByte_of_other {i n : Nat} (named : arguments.getD i 0 = byteOf n) (out : n = 0 ∨ 88 < n)
    (byte : n < 256) : keyOfNumber (argByte arguments i) = none := by
  rw [argByte, named, byteOf_toNat n byte, keyOfNumber_none n out]

end

/-! ### KEY_RETIRE (R102, R104) -/

/-- Settles O44: the retirement of R104, its examination of the head, and the two refusals. -/
theorem keyRetireCompletes : Obligations.KeyRetireCompletes := by
  intro s a t tag arrived
  refine ⟨fun k head => ⟨fun alive room => ?retired, fun retired => ?refused⟩, fun n out byte head => ?unnamed⟩
  case retired =>
    have named : keyOfNumber (argByte [byteOf (keyNumber k)] 0) = some k := keyOfNumber_argByte rfl
    have answer : actKeyRetire [byteOf (keyNumber k)] a.dropHead =
        answerOk (settling none (retireKey k .host) a.dropHead) [] := by
      rw [actKeyRetire, named]
      exact if_neg (Bool.eq_false_iff.mp alive)
    have retired : (retireKey k .host a.dropHead).key k = { a.key k with phase := .retired .host } := by
      rw [retireKey_key, if_pos rfl]
      rfl
    have own : (settling none (retireKey k .host) a.dropHead).key k = { a.key k with phase := .retired .host } := by
      rw [settling_key none _ a.dropHead (by rw [retired]; rfl), retired]
    have frame : KeyFrame k a ((settling none (retireKey k .host) a.dropHead).respond (byteOf 0x1C) tag .ok []) :=
      .answered (.settling none (.retireKey .host a.dropHead))
    refine ⟨_, exec_of_effect rfl arrived head rfl answer, own, ?owner, driveLevel_of_silent ?strike ?hold, ?entry,
      frame.others, frame.heat, frame.pedals, frame.cue, ?port⟩
    case owner => rw [State.owner, State.respond_key, own]; rfl
    case strike => rw [State.respond_key, own]; exact fun strike => by cases strike
    case hold => rw [State.respond_key, own]; rfl
    case entry =>
      intro e queued
      have left := (settling_entries none (retireKey k .host) a.dropHead).subset queued
      rw [retireKey_entries] at left
      exact of_decide_eq_true (List.mem_filter.mp left).2
    case port =>
      rw [State.respond, settling_port, retireKey_port (s := a.dropHead) .host room]
      rfl
  case refused =>
    have named : keyOfNumber (argByte [byteOf (keyNumber k)] 0) = some k := keyOfNumber_argByte rfl
    have answer : actKeyRetire [byteOf (keyNumber k)] a.dropHead = refuse a.dropHead .state := by
      rw [actKeyRetire, named]
      exact if_pos retired
    exact exec_of_answer rfl arrived head rfl answer
  case unnamed =>
    have answer : actKeyRetire [byteOf n] a.dropHead = refuse a.dropHead .badArgument := by
      rw [actKeyRetire, keyOfNumber_argByte_of_other rfl out byte]
    exact exec_of_answer rfl arrived head rfl answer

/-! ### KEY_RESTORE (R103) -/

theorem levelNote_key (c : Claim) (s : State) (j : Key) : (levelNote c s).1.key j = s.key j := by
  unfold levelNote
  cases c.level with
  | roll onset accent => exact s.setHalf_key _ _ j
  | given level => rfl
  | follow => rfl

/-- A claim on a key that is free or waits for launch places its note (R83, R86). -/
theorem takeClaim_of_free {c : Claim} {s u : State} {n : Note} (levelled : levelNote c s = (u, n))
    (free : phaseNumber (u.key c.key).phase ≤ 1) : takeClaim c s = placeNote c.key n u := by
  rw [takeClaim, levelled]
  dsimp only
  cases phase : (u.key c.key).phase with
  | idle => rfl
  | pending n v => rfl
  | strike _ _ _ _ _ _ | hold _ _ _ _ _ | damp _ | waiting _ _ | retired _ =>
    rw [phase] at free
    exact absurd free (by simp [phaseNumber])

theorem phaseNumber_placeNote (k : Key) (n : Note) (s : State) : phaseNumber ((placeNote k n s).key k).phase = 1 := by
  rw [placeNote, enterPending_key, if_pos rfl]
  rfl

/-- A claim of an IDLE key by an enabled source is taken into PENDING. -/
theorem claim_answer_of_idle {c : Claim} {s : State} (enabled : (s.context c.claimant.source).enabled = true)
    (idle : (s.key c.key).phase = .idle) : (claim c s).2 = .taken 1 := by
  have free : phaseNumber ((levelNote c s).1.key c.key).phase ≤ 1 := by
    rw [levelNote_key, idle]
    exact Nat.zero_le 1
  rw [claim_of_idle enabled idle, takeClaim_of_free rfl free, phaseNumber_placeNote]

/-- Settles O45: R103 on a RETIRED key, the claim it then takes, and the two refusals. -/
theorem keyRestoreCompletes : Obligations.KeyRestoreCompletes := by
  intro s a t tag arrived
  refine ⟨fun k head => ?named, fun n out byte head => ?unnamed⟩
  case named =>
    have named : keyOfNumber (argByte [byteOf (keyNumber k)] 0) = some k := keyOfNumber_argByte rfl
    refine ⟨fun r retired => ?restored, fun alive => ?refused⟩
    case restored =>
      have answer : actKeyRestore [byteOf (keyNumber k)] a.dropHead = answerOk (restoreKey k a.dropHead) [] := by
        rw [actKeyRestore, named]
        exact if_pos (by rw [State.dropHead_key, retired]; rfl)
      refine ⟨_, exec_of_effect rfl arrived head rfl answer, rfl, fun c own enabled => ?_⟩
      refine claim_answer_of_idle (by rw [State.respond_context]; exact enabled) ?_
      rw [own, State.respond_key, restoreKey, State.key_setKey_same]
    case refused =>
      have answer : actKeyRestore [byteOf (keyNumber k)] a.dropHead = refuse a.dropHead .state := by
        rw [actKeyRestore, named]
        exact if_neg (Bool.eq_false_iff.mp alive)
      exact exec_of_answer rfl arrived head rfl answer
  case unnamed =>
    have answer : actKeyRestore [byteOf n] a.dropHead = refuse a.dropHead .badArgument := by
      rw [actKeyRestore, keyOfNumber_argByte_of_other rfl out byte]
    exact exec_of_answer rfl arrived head rfl answer

/-! ### PLAY_CANCEL (R97) -/

section
variable (k : Key) (s : State)

theorem cancelNote_key :
    (cancelNote k s).key k = { s.key k with phase := withdrawnPhase s.clock (gapEndNow s k) (s.key k).phase } :=
  s.key_setPhase_same k _

theorem cancelNote_frame : KeyFrame k s (cancelNote k s) := (KeyFrame.setPhase _ s).trans (.dequeue _)

/-- A cancelled key has no entry in the strike queue, before and after the examination of the head (R97, R117). -/
theorem cancelNote_entries {e : QueueEntry} (queued : e ∈ (settling none (cancelNote k) s).queue.entries) :
    e.key ≠ k := by
  have left : e ∈ withoutKey k s.queue.entries := (settling_entries none (cancelNote k) s).subset queued
  exact of_decide_eq_true (List.mem_filter.mp left).2

end

/-- Settles O41: the withdrawal of R97 and the examination of the head after it. -/
theorem playCancelCompletes : Obligations.PlayCancelCompletes := by
  intro s a t tag cueId key k arrived head folded
  have named : keyOfNumber (argByte [cueId, byteOf (keyNumber key)] 1) = some key := keyOfNumber_argByte rfl
  refine ⟨fun foreign => ?refused, fun owned => ?cancelled⟩
  case refused =>
    have answer : actPlayCancel [cueId, byteOf (keyNumber key)] a.dropHead = refuse a.dropHead .notOwner := by
      rw [actPlayCancel, named]
      exact if_neg (by rw [folded] at foreign; exact foreign)
    exact exec_of_answer rfl arrived head rfl answer
  case cancelled =>
    have answer : actPlayCancel [cueId, byteOf (keyNumber key)] a.dropHead =
        answerOk (settling none (cancelNote k) a.dropHead) [byteOf (phaseNumber (a.key k).phase)] := by
      rw [actPlayCancel, named, folded]
      exact if_pos (by rw [folded] at owned; exact owned)
    have cancelled := cancelNote_key k a.dropHead
    have own : (settling none (cancelNote k) a.dropHead).key k =
        { a.key k with phase := withdrawnPhase a.clock (gapEndNow a k) (a.key k).phase } := by
      rw [settling_key none _ a.dropHead (by rw [cancelled]; exact withdrawnPhase_not_pending _ _ _), cancelled]
      rfl
    have frame : KeyFrame k a ((settling none (cancelNote k) a.dropHead).respond (byteOf 0x16) tag .ok
        [byteOf (phaseNumber (a.key k).phase)]) :=
      .answered (.settling none (cancelNote_frame k a.dropHead))
    refine ⟨_, exec_of_effect rfl arrived head rfl answer,
      respond_port (settling_port none (cancelNote k) a.dropHead) _ _ _ _,
      fun e queued => cancelNote_entries k a.dropHead queued, fun n v phase => ?_, fun m g phase => ?_,
      fun n v l e te phase => ?_, fun n v l e te m phase => ?_, fun n v l d start phase => ?_, frame.others,
      frame.pedals, frame.cue, frame.contexts, frame.heat⟩
    all_goals
      rw [State.respond_key, own, phase]
      rfl

/-! ### PLAY_CLOSE (R87, R88, R96) -/

section
variable (o : Owner) (release : Time)

/-- What a close for an owner leaves of a key's record (R87). -/
def closedRecord (s : State) (k : Key) : KeyRecord :=
  if s.owner k = some o then
    { s.key k with phase := releasedPhase s.clock (gapEndNow s k) release (s.key k).phase }
  else s.key k

theorem closeKey_eq (k : Key) (s : State) : closeKey o release k s = s.setKey k (closedRecord o release s k) := by
  unfold closeKey closedRecord
  split
  · exact storeRelease_eq k release s
  · exact (setKey_same s k).symm

/-- The close of distinct keys changes each of them as its own close does, and nothing else. -/
theorem foldl_closeKey {keys : List Key} (nodup : keys.Nodup) (s : State) :
    ∃ records : Vector KeyRecord 88,
      keys.foldl (fun t k => closeKey o release k t) s = { s with keys := records } ∧
      ∀ k : Key, records[k] = if k ∈ keys then closedRecord o release s k else s.key k := by
  induction keys generalizing s with
  | nil => exact ⟨s.keys, rfl, fun k => rfl⟩
  | cons j keys ih =>
    obtain ⟨absent, distinct⟩ := List.nodup_cons.mp nodup
    obtain ⟨records, folded, closed⟩ := ih distinct (s.setKey j (closedRecord o release s j))
    refine ⟨records, by rw [List.foldl_cons, closeKey_eq, folded]; rfl, fun k => ?_⟩
    rw [closed k]
    by_cases same : j = k
    · subst same
      rw [if_neg absent, if_pos List.mem_cons_self, State.key_setKey_same]
    · have untouched : (s.setKey j (closedRecord o release s j)).key k = s.key k := s.key_setKey_ne j k _ same
      rw [closedRecord, State.owner, untouched]
      simp only [List.mem_cons, Ne.symm same, false_or]
      rfl

theorem closeAll_spec (s : State) : ∃ records : Vector KeyRecord 88,
    closeAll o release s = { s with keys := records } ∧ ∀ k : Key, records[k] = closedRecord o release s k := by
  obtain ⟨records, folded, closed⟩ := foldl_closeKey o release (List.nodup_finRange 88) s
  exact ⟨records, folded, fun k => by rw [closed k, if_pos (List.mem_finRange k)]⟩

end

/-- The release time of a PLAY_CLOSE, by its time mode (R96). -/
theorem closeTimeOf_mode {now given release : Time} {mode : Byte}
    (timed : mode = 0 ∧ release = given ∨ mode = 1 ∧ release = now) :
    closeTimeOf now given mode.toNat = some release := by
  obtain ⟨rfl, rfl⟩ | ⟨rfl, rfl⟩ := timed <;> rfl

theorem closeTimeOf_of_other {now given : Time} {mode : Byte} (other : 1 < mode.toNat) :
    closeTimeOf now given mode.toNat = none := by
  obtain ⟨m, e⟩ := Nat.exists_eq_add_of_le' other
  rw [e]
  rfl

section
variable {s a : State} {t given release : Time} {tag cueId key mode : Byte}

/-- The arguments of a PLAY_CLOSE. -/
def closeArguments (cueId key mode : Byte) (given : Time) : List Byte := [cueId, key, mode] ++ fieldTime given

theorem argTime_closeArguments : argTime (closeArguments cueId key mode given) 3 = given := by
  have read := argTime_append [cueId, key, mode] [] given
  rw [List.append_nil] at read
  exact read

section
variable (timed : closeTimeOf s.clock given mode.toNat = some release)
include timed

theorem closeTimeOf_closeArguments (key : Byte) :
    closeTimeOf s.clock (argTime (closeArguments cueId key mode given) 3)
      (argByte (closeArguments cueId key mode given) 2) = some release := by
  rw [argTime_closeArguments]
  exact timed

theorem actPlayClose_of_all :
    actPlayClose (closeArguments cueId 0 mode given) s = closeEvery (cueOwner cueId) release s := by
  rw [actPlayClose, closeTimeOf_closeArguments timed]
  exact if_pos rfl

theorem actPlayClose_of_key (key : Key) :
    actPlayClose (closeArguments cueId (byteOf (keyNumber key)) mode given) s =
      closeOne (cueOwner cueId) release (cueKey s (keyNumber key)) s := by
  have read : argByte (closeArguments cueId (byteOf (keyNumber key)) mode given) 1 = keyNumber key :=
    byteOf_keyNumber key
  rw [actPlayClose, closeTimeOf_closeArguments timed, read, keyOfNumber_keyNumber]
  exact if_neg (Nat.succ_ne_zero _)

theorem actPlayClose_of_unnamed {n : Nat} (out : 88 < n) (byte : n < 256) :
    actPlayClose (closeArguments cueId (byteOf n) mode given) s = refuse s .badArgument := by
  have read : argByte (closeArguments cueId (byteOf n) mode given) 1 = n := byteOf_toNat n byte
  rw [actPlayClose, closeTimeOf_closeArguments timed, read, keyOfNumber_none n (.inr out)]
  exact if_neg (by omega)

end

theorem actPlayClose_of_untimed (untimed : closeTimeOf s.clock given mode.toNat = none) :
    actPlayClose (closeArguments cueId key mode given) s = refuse s .badArgument := by
  have time : closeTimeOf s.clock (argTime (closeArguments cueId key mode given) 3)
      (argByte (closeArguments cueId key mode given) 2) = none := by
    rw [argTime_closeArguments]
    exact untimed
  rw [actPlayClose, time]

end

/-- Settles O40: the close of one key, of every key of the cue id, and the refusals of R96. -/
theorem playCloseOfKey : Obligations.PlayCloseOfKey := by
  refine ⟨fun s a t given release tag cueId mode key k arrived head timed folded quiet => ?one,
    fun s a t given release tag cueId mode arrived head timed quiet => ?every,
    fun s a t given tag cueId mode n arrived byte head wrong => ?refused⟩
  case one =>
    have one : actPlayClose (closeArguments cueId (byteOf (keyNumber key)) mode given) a.dropHead =
        closeOne (cueOwner cueId) release k a.dropHead := by
      rw [folded]
      exact actPlayClose_of_key (s := a.dropHead) (closeTimeOf_mode timed) key
    refine ⟨fun foreign => ?foreign, fun owned => ?owned⟩
    case foreign => exact exec_of_answer rfl arrived head rfl (one.trans (if_neg foreign))
    case owned =>
      have stored : closeKey (cueOwner cueId) release k a.dropHead =
          a.dropHead.setPhase k (releasedPhase a.clock (gapEndNow a k) release (a.key k).phase) :=
        (if_pos owned).trans (storeRelease_eq k release a.dropHead)
      have settled : settling none (closeKey (cueOwner cueId) release k) a.dropHead =
          a.dropHead.setPhase k (releasedPhase a.clock (gapEndNow a k) release (a.key k).phase) := by
        rw [settling_of_same_queue (s := a.dropHead) (by rw [stored]; rfl) quiet, stored]
      have answer : closeOne (cueOwner cueId) release k a.dropHead = answerOk
          (a.dropHead.setPhase k (releasedPhase a.clock (gapEndNow a k) release (a.key k).phase)) [] := by
        rw [← settled]
        exact if_pos owned
      exact ⟨_, exec_of_effect rfl arrived head rfl (one.trans answer), releaseStored_releasedPhase _ _ _ _⟩
  case every =>
    have every : actPlayClose (closeArguments cueId 0 mode given) a.dropHead =
        closeEvery (cueOwner cueId) release a.dropHead :=
      actPlayClose_of_all (s := a.dropHead) (closeTimeOf_mode timed)
    obtain ⟨records, folded, closed⟩ := closeAll_spec (cueOwner cueId) release a.dropHead
    have settled : settling none (closeAll (cueOwner cueId) release) a.dropHead =
        { a.dropHead with keys := records } := by
      rw [settling_of_same_queue (s := a.dropHead) (by rw [folded]) quiet, folded]
    have answer : closeEvery (cueOwner cueId) release a.dropHead = answerOk { a.dropHead with keys := records }
        [byteOf (keysOf (cueOwner cueId) a.dropHead).length] := by
      rw [← settled]
      rfl
    refine ⟨records, exec_of_effect rfl arrived head rfl (every.trans answer),
      fun k => ⟨fun foreign => ?_, fun owned => ?_⟩⟩
    · exact (closed k).trans (if_neg foreign)
    · have own := (closed k).trans (if_pos owned)
      rw [own]
      exact ⟨rfl, releaseStored_releasedPhase _ _ _ _⟩
  case refused =>
    have answer : actPlayClose (closeArguments cueId (byteOf n) mode given) a.dropHead =
        refuse a.dropHead .badArgument := by
      cases time : closeTimeOf a.dropHead.clock given mode.toNat with
      | none => exact actPlayClose_of_untimed time
      | some release =>
        have out : 88 < n := wrong.resolve_right fun other => by
          rw [closeTimeOf_of_other other] at time
          cases time
        exact actPlayClose_of_unnamed time out byte
    exact exec_of_answer rfl arrived head rfl answer

/-! ### ALL_OFF and QUIET_SET (R100, R101, R174) -/

/-- A silenced key is IDLE, in DAMP or RETIRED. -/
theorem silencedPhase_cases (gapEnd : Time) (p : KeyPhase) :
    silencedPhase gapEnd p = .idle ∨ (∃ g, silencedPhase gapEnd p = .damp g) ∨
      ∃ r, silencedPhase gapEnd p = .retired r := by
  cases p with
  | idle | pending _ _ => exact .inl rfl
  | strike _ _ _ _ _ _ | hold _ _ _ _ _ | damp _ | waiting _ _ => exact .inr (.inl ⟨_, rfl⟩)
  | retired r => exact .inr (.inr ⟨r, rfl⟩)

/-- A silenced key neither waits for launch nor sounds nor has an owner. -/
theorem silencedPhase_silent (gapEnd : Time) (p : KeyPhase) :
    isPending (silencedPhase gapEnd p) = false ∧ isHold (silencedPhase gapEnd p) = false ∧
      phaseNumber (silencedPhase gapEnd p) ≠ 2 ∧ phaseOwner (silencedPhase gapEnd p) = none := by
  rcases silencedPhase_cases gapEnd p with e | ⟨g, e⟩ | ⟨r, e⟩ <;> rw [e] <;>
    exact ⟨rfl, rfl, by simp [phaseNumber], rfl⟩

/-- Every key silenced and the head examined: the strike queue is empty, each key in its silenced phase, and
nothing else changed (R101). -/
theorem settling_silenceKeys (s : State) : ∃ keys status,
    settling none silenceKeys s = { s with keys := keys, queue := { entries := [], status := status } } ∧
      ∀ k : Key, keys[k] = { s.key k with phase := silencedPhase (gapEndNow s k) (s.key k).phase } := by
  have silenced : ∀ k, (silenceKeys s).key k =
      { s.key k with phase := silencedPhase (gapEndNow s k) (s.key k).phase } := updatePhases_key _ s
  have still : ∀ k, isPending ((silenceKeys s).key k).phase = false := fun k => by
    rw [silenced k]
    exact (silencedPhase_silent _ _).1
  have empty : (silenceKeys s).queue.entries = [] := List.eq_nil_iff_forall_not_mem.mpr fun e queued => by
    obtain ⟨-, waits⟩ := updatePhases_entries _ s e queued
    exact Bool.noConfusion (waits.symm.trans (still e.key))
  obtain ⟨keys, queue, settled, kept, -⟩ := settling_frame none silenceKeys s
  rw [empty] at kept
  refine ⟨keys, queue.status, ?_, fun k => ?_⟩
  · rw [settled, ← List.sublist_nil.mp kept, silenceKeys, updatePhases]
  · have own := settling_key none silenceKeys s (still k)
    rw [settled, silenced k] at own
    exact own

section
variable {s : State} {k : Key}

/-- A key found silenced drives nothing. -/
theorem driveLevel_of_silenced {gapEnd : Time} {p : KeyPhase} (silenced : (s.key k).phase = silencedPhase gapEnd p) :
    driveLevel s k = 0 := by
  obtain ⟨-, unheld, silent, -⟩ := silencedPhase_silent gapEnd p
  rw [← silenced] at unheld silent
  exact driveLevel_of_silent silent unheld

end

theorem silencedPhase_of_unlaunched {gapEnd : Time} {p : KeyPhase} (unlaunched : phaseNumber p ≤ 1) :
    silencedPhase gapEnd p = .idle := by
  cases p with
  | idle | pending _ _ => rfl
  | strike _ _ _ _ _ _ | hold _ _ _ _ _ | damp _ | waiting _ _ | retired _ => simp [phaseNumber] at unlaunched

theorem silencedPhase_of_sounding {gapEnd : Time} {p : KeyPhase} (sounding : phaseNumber p = 2 ∨ phaseNumber p = 3) :
    silencedPhase gapEnd p = .damp gapEnd := by
  cases p with
  | strike _ _ _ _ _ _ | hold _ _ _ _ _ => rfl
  | idle | pending _ _ | damp _ | waiting _ _ | retired _ => simp [phaseNumber] at sounding

theorem boolOfNumber_of_other {b : Byte} (other : 2 ≤ b.toNat) : boolOfNumber b.toNat = none := by
  obtain ⟨m, e⟩ := Nat.exists_eq_add_of_le' other
  rw [e]
  rfl

/-- Settles O42: every key silenced by ALL_OFF and by QUIET_SET ON, QUIET_SET OFF, and the refusal. -/
theorem allOffAndQuietSet : Obligations.AllOffAndQuietSet := by
  refine ⟨fun s a t tag arrived head => ?allOff,
    fun s a t tag arrived => ⟨fun head => ?on, fun head => ?off, fun b other head => ?refused⟩⟩
  case allOff =>
    obtain ⟨keys, status, settled, silenced⟩ := settling_silenceKeys a.dropHead
    have answer : actAllOff [] a.dropHead = answerOk (releasePedals
        { a.dropHead with keys := keys, queue := { entries := [], status := status } }) [] := by
      rw [← settled]
      rfl
    refine ⟨_, exec_of_effect rfl arrived head rfl answer, rfl, fun k => ?_⟩
    have silent : (keys[k]).phase = silencedPhase (gapEndNow a k) (a.key k).phase :=
      congrArg KeyRecord.phase (silenced k)
    refine ⟨?record, driveLevel_of_silenced silent, fun unlaunched => ?unlaunched,
      fun sounding => ?sounding, fun g phase => ?_, fun m g phase => ?_, fun r phase => ?_⟩
    case record =>
      show keys[k] = { a.key k with phase := (keys[k]).phase }
      rw [silenced k]
      rfl
    case unlaunched => exact silent.trans (silencedPhase_of_unlaunched unlaunched)
    case sounding => exact silent.trans (silencedPhase_of_sounding sounding)
    all_goals
      refine silent.trans ?_
      rw [phase]
      rfl
  case on =>
    obtain ⟨keys, status, settled, silenced⟩ := settling_silenceKeys a.dropHead
    have answer : actQuietSet [1] a.dropHead = answerOk
        { a.dropHead with keys := keys, queue := { entries := [], status := status }, quiet := true } [] := by
      show answerOk { settling none silenceKeys a.dropHead with quiet := true } [] = _
      rw [settled]
    refine ⟨_, exec_of_effect rfl arrived head rfl answer, rfl, fun k => ?_⟩
    have phase : (keys[k]).phase = silencedPhase (gapEndNow a k) (a.key k).phase :=
      congrArg KeyRecord.phase (silenced k)
    have flags : (keys[k]).flags = (a.key k).flags := by
      rw [silenced k]
      rfl
    obtain ⟨still, unheld, -, unowned⟩ := silencedPhase_silent (gapEndNow a k) (a.key k).phase
    exact ⟨driveLevel_of_silenced phase, (congrArg isPending phase).trans still, (congrArg isHold phase).trans unheld,
      (congrArg phaseOwner phase).trans unowned, flags⟩
  case off =>
    have answer : actQuietSet [0] a.dropHead = answerOk { a.dropHead with quiet := false } [] := rfl
    exact exec_of_effect rfl arrived head rfl answer
  case refused =>
    have unnamed : boolOfNumber (argByte [b] 0) = none := boolOfNumber_of_other other
    have answer : actQuietSet [b] a.dropHead = refuse a.dropHead .badArgument := by rw [actQuietSet, unnamed]
    exact exec_of_answer rfl arrived head rfl answer

end Sys2Proof.Machine
end

section
/-! PLAY_OPEN: the claim of a cue note and its answer (05_the_key_table R81 to R86, R95). -/

namespace Sys2Proof.Machine

/-! ### A claim against the state of its key (R81 to R85) -/

/-- What a claim leaves of a phase with a sounding note, a gap or a retirement (R83 to R85). -/
def claimedPhase (now gapEnd : Time) (n : Note) : KeyPhase → KeyPhase
  | .strike m v l sensed t none => .strike { m with release := some now } v l sensed t (some n)
  | .strike m v l sensed t (some _) => .strike m v l sensed t (some n)
  | .hold _ _ _ _ _ => .waiting n gapEnd
  | .damp g => .waiting n g
  | .waiting _ g => .waiting n g
  | p => p

section
variable {c : Claim} {s : State} {n : Note}

theorem takeClaim_of_busy (levelled : levelNote c s = (s, n)) (busy : 2 ≤ phaseNumber (s.key c.key).phase) :
    takeClaim c s =
      s.setPhase c.key (claimedPhase s.clock (gapEndNow s c.key) n (s.key c.key).phase) := by
  have kept := State.setPhase_phase c.key s
  rw [takeClaim, levelled]
  dsimp only
  cases phase : (s.key c.key).phase with
  | strike m v l sensed t x => cases x <;> rfl
  | hold _ _ _ _ _ | damp _ | waiting _ _ => rfl
  | retired r => rw [phase] at kept; exact kept.symm
  | idle | pending _ _ =>
    rw [phase] at busy
    exact absurd busy (by simp [phaseNumber])

section
variable (enabled : (s.context c.claimant.source).enabled = true)
include enabled

theorem claim_of_retired (retired : isRetired (s.key c.key).phase = true) : claim c s = (s, .retired) := by
  rw [claim, enabled, retired]
  rfl

theorem claim_of_outranked (alive : isRetired (s.key c.key).phase = false) (outranked : passesPriority c s = false) :
    claim c s = (s, .owned) := by
  rw [claim, enabled, alive, outranked]
  rfl

theorem claim_of_passing (alive : isRetired (s.key c.key).phase = false) (passes : passesPriority c s = true) :
    claim c s = (settling (some c.key) (takeClaim c) s,
      .taken (phaseNumber ((takeClaim c s).key c.key).phase)) := by
  rw [claim, enabled, alive, passes]
  rfl

end

theorem passesPriority_of_unowned (unowned : s.owner c.key = none) : passesPriority c s = true := by
  rw [passesPriority, unowned]

theorem passesPriority_of_owner {o : Owner} (owner : s.owner c.key = some o) : passesPriority c s =
    decide ((s.context o.source).priority ≤ (s.context c.claimant.source).priority) := by
  rw [passesPriority, owner]

end

/-- A key with an owner is not RETIRED. -/
theorem alive_of_owner {p : KeyPhase} {o : Owner} (owner : phaseOwner p = some o) : isRetired p = false := by
  cases p with
  | retired r => cases owner
  | idle | pending _ _ | strike _ _ _ _ _ _ | hold _ _ _ _ _ | damp _ | waiting _ _ => rfl

/-! ### The level of a play request (R75, R86, R95) -/

/-- A level field names a level, or with FFFF the output level of the key's half. -/
def PlayLevel (s : State) (k : Key) (w level : Nat) : Prop :=
  w ≤ 1023 ∧ level = w ∨ w = 0xFFFF ∧ level = s.output (if keyNumber k ≤ s.setting .splitKey then .bass else .treble)

/-- The claim of a PLAY_OPEN on its folded key. -/
def playClaim (k : Key) (cueId : Byte) (w : Nat) (sound : Time) : Claim where
  key := k
  claimant := cueOwner cueId
  sound := sound
  level := if w = 0xFFFF then .follow else .given w

theorem cueLevelOf_of_valid {w : Nat} (valid : w ≤ 1023 ∨ w = 0xFFFF) :
    ∃ level, cueLevelOf w = some level ∧ playLevel level = if w = 0xFFFF then .follow else .given w := by
  unfold cueLevelOf
  split
  · exact ⟨_, rfl, rfl⟩
  · rename_i given
    exact ⟨_, if_pos (valid.resolve_right given), rfl⟩

theorem cueLevelOf_of_invalid {w : Nat} (above : 1023 < w) (given : w ≠ 0xFFFF) : cueLevelOf w = none := by
  rw [cueLevelOf, if_neg given, if_neg (Nat.not_le.mpr above)]

theorem levelNote_playClaim {s : State} {k : Key} {w level : Nat} (levelled : PlayLevel s k w level) (cueId : Byte)
    (sound : Time) : levelNote (playClaim k cueId w sound) s =
      (s, { claimant := cueOwner cueId, sound := sound, level := level, release := none }) := by
  unfold levelNote playClaim
  obtain ⟨below, rfl⟩ | ⟨rfl, rfl⟩ := levelled
  · rw [if_neg (by omega)]
  · rfl

/-! ### The arguments of PLAY_OPEN and its refusals (R95) -/

/-- The arguments of a PLAY_OPEN. -/
def playOpenArguments (number cueId : Byte) (w : Nat) (sound : Time) : List Byte :=
  [number, cueId] ++ field16 w ++ fieldTime sound

section
variable {number cueId : Byte} {w : Nat} {sound : Time}

theorem arg16_playOpenArguments (bound : w < 65536) : arg16 (playOpenArguments number cueId w sound) 2 = w := by
  rw [playOpenArguments, List.append_assoc]
  exact arg16_append [number, cueId] (fieldTime sound) w bound

theorem argTime_playOpenArguments : argTime (playOpenArguments number cueId w sound) 4 = sound := by
  have read := argTime_append ([number, cueId] ++ field16 w) [] sound
  rw [List.append_nil] at read
  exact read

end

section
variable {s u : State} {key k : Key} {cueId : Byte} {w : Nat} {sound : Time}

theorem actPlayOpen_of_unnamed {n : Nat} (bound : w < 65536) (byte : n < 256)
    (wrong : n = 0 ∨ 88 < n ∨ 1023 < w ∧ w ≠ 0xFFFF) :
    actPlayOpen (playOpenArguments (byteOf n) cueId w sound) s = refuse s .badArgument := by
  rw [actPlayOpen, arg16_playOpenArguments bound]
  rcases or_assoc.mpr wrong with out | ⟨above, given⟩
  · rw [keyOfNumber_argByte_of_other rfl out byte]
  · rw [cueLevelOf_of_invalid above given]
    cases keyOfNumber (argByte (playOpenArguments (byteOf n) cueId w sound) 0) <;> rfl

section
variable (valid : w ≤ 1023 ∨ w = 0xFFFF)
include valid

theorem actPlayOpen_of_valid : ∃ level, playLevel level = (if w = 0xFFFF then .follow else .given w) ∧
    actPlayOpen (playOpenArguments (byteOf (keyNumber key)) cueId w sound) s =
      if !s.contexts.cue.enabled then refuse s .notPermitted
      else if !inKeyRange s.contexts.cue (cueKey s (keyNumber key)) then refuse s .badArgument
      else openNote (cueKey s (keyNumber key)) cueId level sound s := by
  obtain ⟨level, field, played⟩ := cueLevelOf_of_valid valid
  refine ⟨level, played, ?_⟩
  rw [actPlayOpen, arg16_playOpenArguments (by omega), field, keyOfNumber_argByte rfl, argTime_playOpenArguments]
  rfl

theorem actPlayOpen_of_disabled (disabled : s.contexts.cue.enabled = false) :
    actPlayOpen (playOpenArguments (byteOf (keyNumber key)) cueId w sound) s = refuse s .notPermitted := by
  obtain ⟨level, -, run⟩ := actPlayOpen_of_valid valid
  rw [run, disabled]
  rfl

variable (enabled : s.contexts.cue.enabled = true) (folded : k = cueKey s (keyNumber key))
include enabled folded

theorem actPlayOpen_of_outside (outside : inKeyRange s.contexts.cue k = false) :
    actPlayOpen (playOpenArguments (byteOf (keyNumber key)) cueId w sound) s = refuse s .badArgument := by
  obtain ⟨level, -, run⟩ := actPlayOpen_of_valid valid
  rw [run, enabled, ← folded, outside]
  rfl

variable (inside : inKeyRange s.contexts.cue k = true)
include inside

theorem actPlayOpen_of_inside : ∃ level, playLevel level = (if w = 0xFFFF then .follow else .given w) ∧
    actPlayOpen (playOpenArguments (byteOf (keyNumber key)) cueId w sound) s = openNote k cueId level sound s := by
  obtain ⟨level, played, run⟩ := actPlayOpen_of_valid valid
  refine ⟨level, played, ?_⟩
  rw [run, enabled, ← folded, inside]
  rfl

theorem actPlayOpen_of_taken {m : Nat} (claimed : claim (playClaim k cueId w sound) s = (u, .taken m)) :
    actPlayOpen (playOpenArguments (byteOf (keyNumber key)) cueId w sound) s =
      answerOk u [byteOf (keyNumber k), byteOf m] := by
  obtain ⟨level, played, run⟩ := actPlayOpen_of_inside valid enabled folded inside
  rw [playClaim] at claimed
  rw [run, openNote, played, claimed]

theorem actPlayOpen_of_owned (claimed : claim (playClaim k cueId w sound) s = (s, .owned)) :
    actPlayOpen (playOpenArguments (byteOf (keyNumber key)) cueId w sound) s = refuse s .owned := by
  obtain ⟨level, played, run⟩ := actPlayOpen_of_inside valid enabled folded inside
  rw [playClaim] at claimed
  rw [run, openNote, played, claimed]

theorem actPlayOpen_of_retired (claimed : claim (playClaim k cueId w sound) s = (s, .retired)) :
    actPlayOpen (playOpenArguments (byteOf (keyNumber key)) cueId w sound) s = refuse s .retired := by
  obtain ⟨level, played, run⟩ := actPlayOpen_of_inside valid enabled folded inside
  rw [playClaim] at claimed
  rw [run, openNote, played, claimed]

end
end

/-! ### PLAY_OPEN taken (R81 to R86, R95) -/

theorem PlayLevel.valid {s : State} {k : Key} {w level : Nat} (levelled : PlayLevel s k w level) :
    w ≤ 1023 ∨ w = 0xFFFF := levelled.imp And.left And.left

section
variable {s a : State} {t sound : Time} {tag cueId : Byte} {key k : Key} {w level : Nat} {n : Note}
  (arrived : s.arrive t = a) (levelled : PlayLevel a k w level)
  (head : RequestAtHead a 0x14 tag (playOpenArguments (byteOf (keyNumber key)) cueId w sound))
  (enabled : a.contexts.cue.enabled = true) (folded : k = transposedKey a.contexts.cue (keyNumber key))
  (inside : inKeyRange a.contexts.cue k = true)
include arrived levelled head enabled folded inside

/-- A claim that passes is taken, and answered with the folded key and the state it enters. -/
theorem exec_playOpen_of_passing {u : State} (alive : isRetired (a.key k).phase = false)
    (passes : passesPriority (playClaim k cueId w sound) a = true)
    (taken : settling (some k) (takeClaim (playClaim k cueId w sound)) a.dropHead = u) :
    exec (.playOpen t) s = .next (u.respond (byteOf 0x14) tag .ok
      [byteOf (keyNumber k),
        byteOf (phaseNumber ((takeClaim (playClaim k cueId w sound) a.dropHead).key k).phase)]) := by
  have claimed := claim_of_passing (c := playClaim k cueId w sound) (s := a.dropHead) enabled alive passes
  rw [← taken]
  exact exec_of_effect rfl arrived head rfl
    (actPlayOpen_of_taken (s := a.dropHead) levelled.valid enabled folded inside claimed)

/-- On an IDLE or a PENDING key, with no other key queued, the note is PENDING and TIMED. -/
theorem exec_playOpen_of_free {v : StrikeValues} (free : phaseNumber (a.key k).phase ≤ 1)
    (passes : passesPriority (playClaim k cueId w sound) a = true)
    (note : n = { claimant := { source := .cue, id := cueId }, sound := sound
                  level := min 1023 (level * a.contexts.cue.levelScale / 256), release := none })
    (values : v = strikeValuesOf (a.setting .velMin) (a.setting .velMax) (a.voice k) a.pedals.shift.position n.level
      sound)
    (alone : withoutKey k a.queue.entries = []) (ahead : ¬ reached a.clock v.planned = true) :
    exec (.playOpen t) s = .next { a with
      keys := a.keys.set k { a.key k with phase := .pending n v }
      queue := { entries := [{ key := k, planned := v.planned }], status := .timed }
      port := answeredPort a.port 0x14 tag .ok [byteOf (keyNumber k), 1] } := by
  have alive : isRetired (a.key k).phase = false := by
    cases phase : (a.key k).phase with
    | retired r => rw [phase] at free; exact absurd free (by simp [phaseNumber])
    | idle | pending _ _ | strike _ _ _ _ _ _ | hold _ _ _ _ _ | damp _ | waiting _ _ => rfl
  have placed : takeClaim (playClaim k cueId w sound) a.dropHead = placeNote k
      { claimant := cueOwner cueId, sound := sound, level := level, release := none } a.dropHead :=
    takeClaim_of_free (levelNote_playClaim (s := a.dropHead) levelled cueId sound) free
  have entered : takeClaim (playClaim k cueId w sound) a.dropHead = enterPending k n v a.dropHead := by
    rw [placed, values, note]
    rfl
  rw [exec_playOpen_of_passing arrived levelled head enabled folded inside alive passes
    (settling_enterPending entered alone ahead), placed, phaseNumber_placeNote]
  rfl

/-- On a key that sounds or waits for its gap the note is stored, and the strike queue is left alone. -/
theorem exec_playOpen_of_busy (busy : 2 ≤ phaseNumber (a.key k).phase) (alive : isRetired (a.key k).phase = false)
    (passes : passesPriority (playClaim k cueId w sound) a = true)
    (note : n = { claimant := { source := .cue, id := cueId }, sound := sound, level := level, release := none })
    (quiet : a.queue.status ≠ .waiting) (other : ∀ e, a.queue.entries.head? = some e → e.key ≠ k) :
    exec (.playOpen t) s = .next { a with
      keys := a.keys.set k { a.key k with phase := claimedPhase a.clock (gapEndNow a k) n (a.key k).phase }
      port := answeredPort a.port 0x14 tag .ok [byteOf (keyNumber k),
        byteOf (phaseNumber (claimedPhase a.clock (gapEndNow a k) n (a.key k).phase))] } := by
  have stored : takeClaim (playClaim k cueId w sound) a.dropHead =
      a.dropHead.setPhase k (claimedPhase a.clock (gapEndNow a k) n (a.key k).phase) := by
    rw [note]
    exact takeClaim_of_busy (levelNote_playClaim (s := a.dropHead) levelled cueId sound) busy
  have settled : settling (some k) (takeClaim (playClaim k cueId w sound)) a.dropHead =
      a.dropHead.setPhase k (claimedPhase a.clock (gapEndNow a k) n (a.key k).phase) := by
    rw [settling_of_other_head (s := a.dropHead) (by rw [stored]; rfl) quiet other, stored]
  rw [exec_playOpen_of_passing arrived levelled head enabled folded inside alive passes settled, stored,
    State.key_setPhase_same]
  rfl

end

/-- Settles O39: a claim on an IDLE key, on an owned key by priority and state, on a DAMP key, and the refusals. -/
theorem playOpenCompletes : Obligations.PlayOpenCompletes := by
  refine ⟨fun s a t sound tag cueId key k w level n v arrived levelled head enabled folded low high idle note values
      ahead empty _ => ?idle,
    fun s a t sound tag cueId key k w level n o arrived levelled head enabled folded low high owner note quiet =>
      ⟨fun outranked => ?outranked, fun ranked n0 v0 n1 v1 planned pending queued note1 values ahead => ?pending,
        fun ranked other => ⟨fun n0 v l d start phase => ?_, fun n0 v l e te phase => ?_,
          fun n0 v l e te m phase => ?_, fun m g phase => ?_⟩⟩,
    fun s a t sound g tag cueId key k w level arrived levelled head enabled folded low high damp quiet other => ?damp,
    fun s a t sound tag cueId n w arrived byte bound head => ⟨fun wrong => ?unnamed,
      fun key k numbered valid folded => ?refused⟩⟩
  case idle =>
    have unowned : a.owner k = none := by rw [State.owner, idle]; rfl
    exact exec_playOpen_of_free arrived levelled head enabled folded (decide_eq_true ⟨low, high⟩)
      (by rw [idle]; exact Nat.zero_le 1) (passesPriority_of_unowned unowned) note values (by rw [empty]; rfl) ahead
  case outranked =>
    have refused : passesPriority (playClaim k cueId w sound) a = false := by
      rw [passesPriority_of_owner (c := playClaim k cueId w sound) owner]
      exact decide_eq_false (Nat.not_le.mpr outranked)
    have claimed := claim_of_outranked (c := playClaim k cueId w sound) (s := a.dropHead) enabled
      (alive_of_owner owner) refused
    exact exec_of_answer rfl arrived head rfl (actPlayOpen_of_owned (PlayLevel.valid levelled) enabled folded
      (decide_eq_true ⟨low, high⟩) claimed)
  case pending =>
    have passes : passesPriority (playClaim k cueId w sound) a = true := by
      rw [passesPriority_of_owner (c := playClaim k cueId w sound) owner]
      exact decide_eq_true ranked
    rw [note] at note1
    exact exec_playOpen_of_free arrived levelled head enabled folded (decide_eq_true ⟨low, high⟩)
      (by rw [pending]; exact Nat.le_refl 1) passes note1 values
      (by rw [queued]; exact withoutKey_singleton k planned) ahead
  case damp =>
    have unowned : a.owner k = none := by rw [State.owner, damp]; rfl
    rw [exec_playOpen_of_busy arrived levelled head enabled folded (decide_eq_true ⟨low, high⟩)
      (by rw [damp]; simp [phaseNumber]) (by rw [damp]; rfl) (passesPriority_of_unowned unowned) rfl quiet other,
      damp]
    rfl
  case unnamed => exact exec_of_answer rfl arrived head rfl (actPlayOpen_of_unnamed bound byte wrong)
  case refused =>
    subst numbered
    refine ⟨fun disabled => ?_, fun enabled outside => ?_, fun enabled low high retired => ?_⟩
    · exact exec_of_answer rfl arrived head rfl (actPlayOpen_of_disabled (s := a.dropHead) valid disabled)
    · exact exec_of_answer rfl arrived head rfl (actPlayOpen_of_outside (s := a.dropHead) valid enabled folded
        (decide_eq_false fun ⟨low, high⟩ => outside.elim (Nat.not_lt.mpr low) (Nat.not_lt.mpr high)))
    · have claimed := claim_of_retired (c := playClaim k cueId w sound) (s := a.dropHead) enabled retired
      exact exec_of_answer rfl arrived head rfl (actPlayOpen_of_retired (s := a.dropHead) valid enabled folded
        (decide_eq_true ⟨low, high⟩) claimed)
  all_goals
    have passes : passesPriority (playClaim k cueId w sound) a = true := by
      rw [passesPriority_of_owner (c := playClaim k cueId w sound) owner]
      exact decide_eq_true ranked
    rw [exec_playOpen_of_busy arrived levelled head enabled folded (decide_eq_true ⟨low, high⟩)
      (by rw [phase]; simp [phaseNumber]) (alive_of_owner owner) passes note quiet other, phase]
    rfl

end Sys2Proof.Machine
end

section
/-! KEY_AMEND: the flags, what follows from MUTE and HOLD_EXEMPT, and the level of a PENDING note
(05_the_key_table R94a, R98, R99, 06_strike_computation R123, R126). -/

namespace Sys2Proof.Machine

/-! ### A change of one key with its notices -/

/-- A key in another phase, and notices at the tail of their queue. -/
def amended (k : Key) (p : KeyPhase) (gone : List Notice) (s : State) : State :=
  { s with
    keys := s.keys.set k { s.key k with phase := p }
    port := { s.port with notices := s.port.notices ++ gone } }

section
variable {k : Key} {p p' : KeyPhase} {gone gone' : List Notice} {s : State}

theorem setPhase_eq_amended : s.setPhase k p = amended k p [] s := by
  rw [amended, List.append_nil]
  rfl

theorem raise_setPhase_eq_amended {kind : NoticeKind} {fields : List Byte} (room : s.port.notices.length < 32) :
    (s.setPhase k p).raise kind fields =
      amended k p [{ kind := kind, lost := false, time := s.clock, fields := fields }] s :=
  State.raise_of_room (s.setPhase k p) kind fields room

theorem amended_phase : amended k (s.key k).phase [] s = s := by
  rw [← setPhase_eq_amended, State.setPhase_phase]

/-- The phase and the notices of such a change can be read from the state it leaves. -/
theorem amended_inj (same : amended k p gone s = amended k p' gone' s) : p = p' ∧ gone = gone' := by
  have keyed : ∀ q g, (amended k q g s).key k = { s.key k with phase := q } := fun q g => s.key_setPhase_same k q
  have phases : ((amended k p gone s).key k).phase = ((amended k p' gone' s).key k).phase := by rw [same]
  have notices : (amended k p gone s).port.notices = (amended k p' gone' s).port.notices := by rw [same]
  rw [keyed, keyed] at phases
  exact ⟨phases, List.append_cancel_left notices⟩

theorem State.setKey_setKey (r r' : KeyRecord) : (s.setKey k r).setKey k r' = s.setKey k r' :=
  congrArg (fun keys => ({ s with keys := keys } : State)) (Vector.set_set r k.isLt)

theorem State.setPhase_setPhase : (s.setPhase k p).setPhase k p' = s.setPhase k p' := by
  rw [State.setPhase, State.key_setPhase_same]
  exact State.setKey_setKey _ _

end

/-! ### The hold timeout (R94a) -/

/-- A time less than half the clock's range ahead has not come. -/
theorem not_reached_timePlus (now : Time) {us : Nat} (pos : 0 < us) (near : us < 2147483648) :
    ¬ reached now (timePlus now us) = true := by
  have back : now - timePlus now us = BitVec.ofInt 32 (-us) := by
    rw [timePlus, BitVec.ofInt_neg, ← BitVec.sub_sub, BitVec.sub_self, BitVec.zero_sub]
  rw [reached, clockDiff, back, BitVec.toInt_ofInt, Int.bmod_eq_of_le (by omega) (by omega), decide_eq_true_eq]
  omega

section
variable {k : Key} {n : Note} {v : StrikeValues} {l : Launch} {d : Nat} {start : Time} {s : State}

theorem timeOutIfDue_of_other (other : isHold (s.key k).phase = false) : timeOutIfDue k s = s := by
  rw [timeOutIfDue, holdDue_of_other other]

theorem timeOutIfDue_of_subject (hold : (s.key k).phase = .hold n v l d start)
    (limited : s.setting .holdTimeout ≠ 0) (subject : (s.key k).flags.holdExempt = false) : timeOutIfDue k s =
      if reached s.clock (timePlus start (1000000 * (s.setting .holdTimeout : Int))) then timeOutKey k s else s := by
  rw [timeOutIfDue, holdDue_of_subject hold limited subject]

theorem timeOutIfDue_of_kept (hold : (s.key k).phase = .hold n v l d start)
    (kept : s.setting .holdTimeout = 0 ∨ (s.key k).flags.holdExempt = true ∨
      ¬ reached s.clock (timePlus start (1000000 * (s.setting .holdTimeout : Int))) = true) :
    timeOutIfDue k s = s := by
  by_cases exempt : s.setting .holdTimeout = 0 ∨ (s.key k).flags.holdExempt = true
  · rw [timeOutIfDue, holdDue_of_hold hold, if_pos exempt]
  · obtain ⟨limited, subject⟩ := not_or.mp exempt
    rw [timeOutIfDue_of_subject hold limited (Bool.eq_false_iff.mpr subject)]
    exact if_neg ((kept.resolve_left limited).resolve_left subject)

/-- A note that has just entered HOLD is not timed out. -/
theorem timeOutIfDue_of_fresh (hold : (s.key k).phase = .hold n v l d s.clock)
    (bound : s.setting .holdTimeout ≤ 255) : timeOutIfDue k s = s := by
  refine timeOutIfDue_of_kept hold ?_
  rcases Nat.eq_zero_or_pos (s.setting .holdTimeout) with off | pos
  · exact .inl off
  · have ahead := not_reached_timePlus s.clock (us := 1000000 * s.setting .holdTimeout) (by omega) (by omega)
    exact .inr (.inr (by rwa [Nat.cast_mul] at ahead))

end

/-! ### What follows from a change of the flags (R99, R126, log 15) -/

/-- What a KEY_AMEND does after it has changed the flags: MUTE newly set, then the hold timeout. -/
def amendEffects (newly : Bool) (k : Key) (s : State) : State :=
  timeOutIfDue k (if newly then muteNote k s else s)

section
variable {k : Key} {s : State} {newly : Bool}

theorem muteNote_of_other (unheld : isHold (s.key k).phase = false) (silent : phaseNumber (s.key k).phase ≠ 2) :
    muteNote k s = s := by
  unfold muteNote
  split
  · rename_i strike
    rw [strike] at silent
    exact absurd rfl silent
  · rename_i hold
    rw [hold] at unheld
    cases unheld
  · rfl

/-- A key that neither strikes nor holds keeps its phase. -/
theorem amendEffects_of_other (unheld : isHold (s.key k).phase = false) (silent : phaseNumber (s.key k).phase ≠ 2) :
    amendEffects newly k s = s := by
  have unmuted : (if newly then muteNote k s else s) = s := by rw [muteNote_of_other unheld silent, ite_self]
  rw [amendEffects, unmuted, timeOutIfDue_of_other unheld]

/-! #### A strike -/

section
variable {n : Note} {v : StrikeValues} {l : Launch} {sensed : Bool} {e : Time} {m : Option Note}

theorem amendEffects_of_strike (strike : (s.key k).phase = .strike n v l sensed e m)
    (kept : newly = false ∨ l.mode ≠ .normal) : amendEffects newly k s = amended k (s.key k).phase [] s := by
  have unmuted : (if newly then muteNote k s else s) = s := by
    rcases kept with rfl | other
    · rfl
    · have same : muteNote k s = s := by
        rw [muteNote, strike]
        exact if_neg other
      rw [same, ite_self]
  rw [amendEffects, unmuted, timeOutIfDue_of_other (by rw [strike]; rfl), amended_phase]

/-- The phase of a strike made MUTED (R99, R126). -/
def mutedStrike (n : Note) (v : StrikeValues) (l : Launch) (m : Option Note) : KeyPhase :=
  .strike n v { l with mode := .muted } false (unsensedEnd v l) m

theorem setPhase_mutedStrike_phase : ((s.setPhase k (mutedStrike n v l m)).key k).phase =
    .strike n v { l with mode := .muted } false (unsensedEnd v l) m := by
  rw [State.key_setPhase_same]
  rfl

theorem amendEffects_of_normal_strike (strike : (s.key k).phase = .strike n v l sensed e m)
    (normal : l.mode = .normal) : amendEffects true k s = timeOutIfDue k
      (if reached s.clock (unsensedEnd v l) then endStrike k (s.setPhase k (mutedStrike n v l m))
      else s.setPhase k (mutedStrike n v l m)) := by
  have muted : muteNote k s = unsenseStrike k (s.setPhase k (.strike n v { l with mode := .muted } sensed e m)) := by
    rw [muteNote, strike]
    exact if_pos normal
  rw [amendEffects, if_pos rfl, muted, unsenseStrike, State.key_setPhase_same]
  dsimp only
  rw [State.setPhase_setPhase]
  rfl

theorem amendEffects_of_flying (strike : (s.key k).phase = .strike n v l sensed e m) (normal : l.mode = .normal)
    (flying : ¬ reached s.clock (unsensedEnd v l) = true) :
    amendEffects true k s = amended k (mutedStrike n v l m) [] s := by
  rw [amendEffects_of_normal_strike strike normal, if_neg flying,
    timeOutIfDue_of_other (by rw [State.key_setPhase_same]; rfl), setPhase_eq_amended]

theorem amendEffects_of_successor {x : Note} (strike : (s.key k).phase = .strike n v l sensed e (some x))
    (normal : l.mode = .normal) (landed : reached s.clock (unsensedEnd v l) = true) :
    amendEffects true k s = amended k (.waiting x (gapEndNow s k)) [] s := by
  rw [amendEffects_of_normal_strike strike normal, if_pos landed,
    endStrike_of_successor setPhase_mutedStrike_phase, State.setPhase_setPhase,
    timeOutIfDue_of_other (by rw [State.key_setPhase_same]; rfl), setPhase_eq_amended]
  rfl

section
variable (strike : (s.key k).phase = .strike n v l sensed e none) (normal : l.mode = .normal)
  (landed : reached s.clock (unsensedEnd v l) = true)
include strike normal landed

theorem amendEffects_of_released (due : releaseDue s n = true) :
    amendEffects true k s = amended k (.damp (gapEndNow s k)) [] s := by
  rw [amendEffects_of_normal_strike strike normal, if_pos landed,
    endStrike_of_released setPhase_mutedStrike_phase due, State.setPhase_setPhase,
    timeOutIfDue_of_other (by rw [State.key_setPhase_same]; rfl), setPhase_eq_amended]
  rfl

theorem amendEffects_of_hot (playing : releaseDue s n = false) (hot : s.heat.max ≤ s.heatOf k)
    (room : s.port.notices.length < 32) : amendEffects true k s = amended k (.damp (gapEndNow s k))
      [{ kind := .keyThermal, lost := false, time := s.clock
         fields := [byteOf (keyNumber k)] ++ fieldOwner (some n.claimant) ++ field32 (s.heatOf k) ++ [1] }] s := by
  rw [amendEffects_of_normal_strike strike normal, if_pos landed,
    endStrike_of_hot setPhase_mutedStrike_phase playing hot, State.setPhase_setPhase, raiseThermal,
    timeOutIfDue_of_other (by rw [State.raise_key, State.key_setPhase_same]; rfl), raise_setPhase_eq_amended room]
  rfl

theorem amendEffects_of_cool (playing : releaseDue s n = false) (cool : s.heatOf k < s.heat.max)
    (bound : s.setting .holdTimeout ≤ 255) : amendEffects true k s =
      amended k (.hold n v { l with mode := .muted } (nominalHold s k) s.clock) [] s := by
  have fresh : ((s.setPhase k (.hold n v { l with mode := .muted } (nominalHold s k) s.clock)).key k).phase =
      .hold n v { l with mode := .muted } (nominalHold s k) s.clock := by rw [State.key_setPhase_same]
  have duty : holdDutyFor (s.setPhase k (mutedStrike n v l none)) k { l with mode := .muted }
      (driveLevel (s.setPhase k (mutedStrike n v l none)) k) = nominalHold s k := rfl
  rw [amendEffects_of_normal_strike strike normal, if_pos landed,
    endStrike_of_cool setPhase_mutedStrike_phase playing cool, State.setPhase_setPhase, duty, State.setPhase_clock,
    timeOutIfDue_of_fresh fresh bound, setPhase_eq_amended]

end
end

/-! #### A hold -/

section
variable {n : Note} {v : StrikeValues} {l : Launch} {d : Nat} {start : Time}

/-- The launch of a note in HOLD after a MUTE newly set or not (R99). -/
def mutedLaunch (newly : Bool) (l : Launch) : Launch := if newly then { l with mode := .muted } else l

variable (hold : (s.key k).phase = .hold n v l d start)
include hold

theorem muteNote_of_hold : (if newly then muteNote k s else s) =
    s.setPhase k (.hold n v (mutedLaunch newly l) d start) := by
  cases newly with
  | false =>
    have kept := State.setPhase_phase k s
    rw [hold] at kept
    exact kept.symm
  | true =>
    rw [if_pos rfl, muteNote, hold]
    rfl

theorem amendEffects_of_kept_hold (kept : s.setting .holdTimeout = 0 ∨ (s.key k).flags.holdExempt = true ∨
      ¬ reached s.clock (timePlus start (1000000 * (s.setting .holdTimeout : Int))) = true) :
    amendEffects newly k s = amended k (.hold n v (mutedLaunch newly l) d start) [] s := by
  rw [amendEffects, muteNote_of_hold hold,
    timeOutIfDue_of_kept (by rw [State.key_setPhase_same]) (by rw [State.key_setPhase_same]; exact kept),
    setPhase_eq_amended]

theorem amendEffects_of_expired_hold (limited : s.setting .holdTimeout ≠ 0)
    (subject : (s.key k).flags.holdExempt = false)
    (due : reached s.clock (timePlus start (1000000 * (s.setting .holdTimeout : Int))) = true)
    (room : s.port.notices.length < 32) : amendEffects newly k s = amended k (.damp (gapEndNow s k))
      [{ kind := .keyHoldTimeout, lost := false, time := s.clock
         fields := [byteOf (keyNumber k)] ++ fieldOwner (some n.claimant) ++ fieldTime start }] s := by
  have held : ((s.setPhase k (.hold n v (mutedLaunch newly l) d start)).key k).phase =
      .hold n v (mutedLaunch newly l) d start := by rw [State.key_setPhase_same]
  rw [amendEffects, muteNote_of_hold hold, timeOutIfDue_of_subject held limited
    (by rw [State.key_setPhase_same]; exact subject)]
  refine (if_pos due).trans ?_
  rw [timeOutKey, held]
  dsimp only
  rw [State.setPhase_setPhase, raise_setPhase_eq_amended room]
  rfl

end

/-- With room for a notice, a change of the flags leads to one phase of the key and its notices. -/
theorem amendEffects_amended (newly : Bool) (room : s.port.notices.length < 32)
    (bound : s.setting .holdTimeout ≤ 255) : ∃ p gone, amendEffects newly k s = amended k p gone s := by
  cases phase : (s.key k).phase with
  | strike n v l sensed e m =>
    by_cases muted : newly = true ∧ l.mode = .normal
    · obtain ⟨rfl, normal⟩ := muted
      by_cases landed : reached s.clock (unsensedEnd v l) = true
      · cases m with
        | some x => exact ⟨_, _, amendEffects_of_successor phase normal landed⟩
        | none =>
          cases due : releaseDue s n with
          | true => exact ⟨_, _, amendEffects_of_released phase normal landed due⟩
          | false =>
            rcases Nat.lt_or_ge (s.heatOf k) s.heat.max with cool | hot
            · exact ⟨_, _, amendEffects_of_cool phase normal landed due cool bound⟩
            · exact ⟨_, _, amendEffects_of_hot phase normal landed due hot room⟩
      · exact ⟨_, _, amendEffects_of_flying phase normal landed⟩
    · rw [not_and_or, Bool.not_eq_true] at muted
      exact ⟨_, _, amendEffects_of_strike phase muted⟩
  | hold n v l d start =>
    by_cases kept : s.setting .holdTimeout = 0 ∨ (s.key k).flags.holdExempt = true ∨
        ¬ reached s.clock (timePlus start (1000000 * (s.setting .holdTimeout : Int))) = true
    · exact ⟨_, _, amendEffects_of_kept_hold phase kept⟩
    · obtain ⟨limited, subject, due⟩ := by rwa [not_or, not_or, not_not, Bool.not_eq_true] at kept
      exact ⟨_, _, amendEffects_of_expired_hold phase limited subject due room⟩
  | idle | pending _ _ | damp _ | waiting _ _ | retired _ =>
    refine ⟨_, [], (amendEffects_of_other ?_ ?_).trans amended_phase.symm⟩
    · rw [phase]
      rfl
    · rw [phase]
      simp [phaseNumber]

/-- A KEY_AMEND changes the flags, and MUTE is newly set when they say so after and not before (log 15). -/
theorem amendFlags_eq {f : KeyFlags} {setMask clearMask : Byte}
    (changed : (s.key k).flags.amend setMask clearMask = f) :
    amendFlags k setMask clearMask s = amendEffects (f.mute && !(s.key k).flags.mute) k (s.setFlags k f) := by
  have flags : ((s.setFlags k f).key k).flags = f := by rw [State.setFlags, State.key_setKey_same]
  rw [amendFlags, changed, flags, Bool.and_comm]
  rfl

end

/-! ### The arguments of KEY_AMEND and its refusals (R98) -/

/-- The arguments of a KEY_AMEND. -/
def amendArguments (number setMask clearMask : Byte) (w : Nat) : List Byte :=
  [number, setMask, clearMask] ++ field16 w

theorem arg16_amendArguments {number setMask clearMask : Byte} {w : Nat} (bound : w < 65536) :
    arg16 (amendArguments number setMask clearMask w) 3 = w := by
  have read := arg16_append [number, setMask, clearMask] [] w bound
  rw [List.append_nil] at read
  exact read

theorem maskValid_of_other {mask : Byte} (above : 8 ≤ mask.toNat) : maskValid mask = false :=
  decide_eq_false (Nat.not_lt.mpr above)

section
variable {s : State} {k : Key} {setMask clearMask : Byte} {w : Nat}

theorem actKeyAmend_of_refused {n : Nat} (byte : n < 256) (bound : w < 65536)
    (wrong : n = 0 ∨ 88 < n ∨ 8 ≤ setMask.toNat ∨ 8 ≤ clearMask.toNat ∨ (1023 < w ∧ w ≠ 0xFFFF)) :
    actKeyAmend (amendArguments (byteOf n) setMask clearMask w) s = refuse s .badArgument := by
  unfold actKeyAmend
  rw [arg16_amendArguments bound]
  rcases or_assoc.mpr wrong with out | wrong
  · rw [keyOfNumber_argByte_of_other rfl out byte]
  · cases keyOfNumber (argByte (amendArguments (byteOf n) setMask clearMask w) 0) with
    | none => rfl
    | some k =>
      refine if_pos ?_
      show (!maskValid setMask || !maskValid clearMask || decide (amendLevelOf w = .bad)) = true
      rcases wrong with above | above | ⟨above, given⟩
      · rw [maskValid_of_other above]
        rfl
      · rw [maskValid_of_other above]
        simp
      · rw [amendLevelOf, if_neg given, if_neg (Nat.not_le.mpr above)]
        simp

theorem amendLevelOf_of_level (range : w ≤ 1023) : amendLevelOf w = .given w := by
  rw [amendLevelOf, if_neg (by omega), if_pos range]

variable (setValid : setMask.toNat < 8) (clearValid : clearMask.toNat < 8)
include setValid clearValid

/-- A KEY_AMEND with good masks and no level, or a level in range. -/
theorem actKeyAmend_of_valid (bound : w < 65536) (level : amendLevelOf w ≠ .bad) :
    actKeyAmend (amendArguments (byteOf (keyNumber k)) setMask clearMask w) s =
      if decide (amendLevelOf w ≠ .keep) && !isPending (s.key k).phase then refuse s .state
      else answerOk (amendKey k setMask clearMask (amendLevelOf w) s)
        [((s.key k).flags.amend setMask clearMask).toByte] := by
  have tests : (!maskValid setMask || !maskValid clearMask || decide (amendLevelOf w = .bad)) = false := by
    rw [maskValid, maskValid, decide_eq_true setValid, decide_eq_true clearValid, decide_eq_false level]
    rfl
  unfold actKeyAmend
  rw [arg16_amendArguments bound, keyOfNumber_argByte rfl]
  exact if_neg (Bool.eq_false_iff.mp tests)

theorem actKeyAmend_of_flags :
    actKeyAmend (amendArguments (byteOf (keyNumber k)) setMask clearMask 0xFFFF) s =
      answerOk (settling none (amendFlags k setMask clearMask) s)
        [((s.key k).flags.amend setMask clearMask).toByte] :=
  actKeyAmend_of_valid setValid clearValid (by decide) (by decide)

section
variable (range : w ≤ 1023)
include range

theorem actKeyAmend_of_state (still : isPending (s.key k).phase = false) :
    actKeyAmend (amendArguments (byteOf (keyNumber k)) setMask clearMask w) s = refuse s .state := by
  have given := amendLevelOf_of_level range
  rw [actKeyAmend_of_valid setValid clearValid (by omega) (by rw [given]; exact AmendLevel.noConfusion), given, still]
  rfl

theorem actKeyAmend_of_level (pending : isPending (s.key k).phase = true) :
    actKeyAmend (amendArguments (byteOf (keyNumber k)) setMask clearMask w) s =
      answerOk (settling (some k) (fun u => amendLevel k w (amendFlags k setMask clearMask u)) s)
        [((s.key k).flags.amend setMask clearMask).toByte] := by
  have given := amendLevelOf_of_level range
  rw [actKeyAmend_of_valid setValid clearValid (by omega) (by rw [given]; exact AmendLevel.noConfusion), given,
    pending]
  rfl

end
end

/-! ### KEY_AMEND (R98, R99, R123) -/

theorem State.setFlags_setPhase_keys (s : State) (k : Key) (f : KeyFlags) (p : KeyPhase) :
    (s.setFlags k f).keys.set k { (s.setFlags k f).key k with phase := p } =
      s.keys.set k { s.key k with flags := f, phase := p } := by
  have own : (s.setFlags k f).key k = { s.key k with flags := f } := s.key_setKey_same k _
  rw [own]
  exact Vector.set_set _ k.isLt

section
variable {s a : State} {t : Time} {tag setMask clearMask : Byte} {k : Key} {f : KeyFlags}
  (arrived : s.arrive t = a) (setValid : setMask.toNat < 8) (clearValid : clearMask.toNat < 8)
  (changed : (a.key k).flags.amend setMask clearMask = f)
include arrived setValid clearValid changed

/-- With no level the strike queue is left alone. -/
theorem exec_keyAmend_of_flags {u : State}
    (head : RequestAtHead a 0x19 tag (amendArguments (byteOf (keyNumber k)) setMask clearMask 0xFFFF))
    (quiet : a.queue.status ≠ .waiting)
    (effect : amendEffects (f.mute && !(a.key k).flags.mute) k (a.dropHead.setFlags k f) = u)
    (queue : u.queue = a.queue) : exec (.keyAmend t) s = .next (u.respond (byteOf 0x19) tag .ok [f.toByte]) := by
  have flagged : amendFlags k setMask clearMask a.dropHead = u :=
    (amendFlags_eq (s := a.dropHead) changed).trans effect
  have settled : settling none (amendFlags k setMask clearMask) a.dropHead = u := by
    rw [settling_of_same_queue (s := a.dropHead) (by rw [flagged]; exact queue) quiet, flagged]
  rw [exec_of_effect rfl arrived head rfl (actKeyAmend_of_flags setValid clearValid), settled, State.dropHead_key,
    changed]

/-- The level of the only PENDING note replaced, with the flags (R98, R123). -/
theorem exec_keyAmend_of_level {level : Nat} {n : Note} {v v0 : StrikeValues} {planned : Time} (range : level ≤ 1023)
    (head : RequestAtHead a 0x19 tag (amendArguments (byteOf (keyNumber k)) setMask clearMask level))
    (pending : (a.key k).phase = .pending n v0) (queued : a.queue.entries = [{ key := k, planned := planned }])
    (values : v = strikeValuesOf (a.setting .velMin) (a.setting .velMax) (a.voice k) a.pedals.shift.position level
      n.sound)
    (ahead : ¬ reached a.clock v.planned = true) : exec (.keyAmend t) s = .next { a with
      keys := a.keys.set k { a.key k with flags := f, phase := .pending { n with level := level } v }
      queue := { entries := [{ key := k, planned := v.planned }], status := .timed }
      port := answeredPort a.port 0x19 tag .ok [f.toByte] } := by
  have own : ((a.dropHead.setFlags k f).key k).phase = .pending n v0 := by
    rw [State.setFlags, State.key_setKey_same]
    exact pending
  have flagged : amendFlags k setMask clearMask a.dropHead = a.dropHead.setFlags k f := by
    rw [amendFlags_eq (s := a.dropHead) changed]
    exact amendEffects_of_other (by rw [own]; rfl) (by rw [own]; simp [phaseNumber])
  have entered : amendLevel k level (amendFlags k setMask clearMask a.dropHead) =
      enterPending k { n with level := level } v (a.dropHead.setFlags k f) := by
    rw [flagged, amendLevel, own, values]
    rfl
  have alone : withoutKey k (a.dropHead.setFlags k f).queue.entries = [] := by
    show withoutKey k a.queue.entries = []
    rw [queued]
    exact withoutKey_singleton k planned
  have settled := settling_enterPending (k := k) (s := a.dropHead)
    (f := fun u => amendLevel k level (amendFlags k setMask clearMask u)) entered alone ahead
  rw [exec_of_effect rfl arrived head rfl
    (actKeyAmend_of_level (s := a.dropHead) setValid clearValid range (by rw [State.dropHead_key, pending]; rfl)),
    settled, State.setFlags_setPhase_keys, State.dropHead_key, changed]
  rfl

end

theorem releaseDue_of_stored {s : State} {n : Note} (due : ∃ r, n.release = some r ∧ reached s.clock r = true) :
    releaseDue s n = true := by
  obtain ⟨r, stored, come⟩ := due
  exact releaseDue_of_come stored come

/-- Settles O43: the flags alone, a level, what follows from MUTE and the hold timeout, and the refusals. -/
theorem keyAmendCompletes : Obligations.KeyAmendCompletes := by
  refine ⟨fun s a t tag setMask clearMask k f arrived setValid clearValid flags =>
      ⟨fun head unheld silent quiet => ?flags,
        fun level range head => ⟨fun still => ?state, fun n v0 v planned pending queued values ahead => ?level⟩,
        fun due newly quiet room bound newlySet head => ?effects⟩,
    fun s a t tag setMask clearMask n w arrived byte bound head wrong =>
      exec_of_answer rfl arrived head rfl (actKeyAmend_of_refused byte bound wrong)⟩
  all_goals
    have own : (a.dropHead.setFlags k f).key k = { a.key k with flags := f } := a.key_setKey_same k _
  case flags =>
    have unchanged := amendEffects_of_other (newly := f.mute && !(a.key k).flags.mute) (k := k)
      (s := a.dropHead.setFlags k f) (by rw [own]; exact unheld) (by rw [own]; exact silent)
    exact exec_keyAmend_of_flags arrived setValid clearValid flags.symm head quiet unchanged rfl
  case state =>
    exact exec_of_answer rfl arrived head rfl
      (actKeyAmend_of_state (s := a.dropHead) setValid clearValid range still)
  case level =>
    exact exec_keyAmend_of_level arrived setValid clearValid flags.symm range head pending queued values ahead
  case effects =>
    obtain ⟨p, gone, effect⟩ := amendEffects_amended (k := k) (s := a.dropHead.setFlags k f) newly room bound
    have run := exec_keyAmend_of_flags (u := amended k p gone (a.dropHead.setFlags k f)) arrived setValid clearValid
      flags.symm head quiet (newlySet ▸ effect) rfl
    have determined : ∀ {p' gone'}, amendEffects newly k (a.dropHead.setFlags k f) =
        amended k p' gone' (a.dropHead.setFlags k f) → p = p' ∧ gone = gone' :=
      fun outcome => amended_inj (effect.symm.trans outcome)
    refine ⟨p, gone, ?run, fun n v l e te m strike landing => ?strike, fun n v l d start hold expiry => ?hold⟩
    case run =>
      rw [run, amended, State.setFlags_setPhase_keys]
      rfl
    case strike =>
      have struck : ((a.dropHead.setFlags k f).key k).phase = .strike n v l e te m := by rw [own]; exact strike
      subst landing
      refine ⟨fun kept => ?_, fun isNew normal => ?_⟩
      · rw [strike, ← struck]
        exact determined (amendEffects_of_strike struck kept)
      · subst isNew
        refine ⟨fun flying => determined (amendEffects_of_flying struck normal flying), fun landed =>
          ⟨fun m1 successor => ?_, fun alone due => ?_, fun alone playing => ⟨fun hot => ?_, fun cool => ?_⟩⟩⟩
        · rw [successor] at struck
          exact determined (amendEffects_of_successor struck normal landed)
        all_goals rw [alone] at struck
        · exact determined (amendEffects_of_released struck normal landed (releaseDue_of_stored due))
        · exact determined (amendEffects_of_hot struck normal landed (releaseDue_of_ahead playing) hot room)
        · exact determined (amendEffects_of_cool struck normal landed (releaseDue_of_ahead playing) cool bound)
    case hold =>
      have held : ((a.dropHead.setFlags k f).key k).phase = .hold n v l d start := by rw [own]; exact hold
      subst expiry
      refine ⟨fun kept => determined (amendEffects_of_kept_hold held (by rw [own]; exact kept)),
        fun limited subject due =>
          determined (amendEffects_of_expired_hold held limited (by rw [own]; exact subject) due room)⟩

end Sys2Proof.Machine
end

section
/-! The strike queue: the place of a new entry, and what keeps its entries those of the keys in PENDING
(06_strike_computation R117). -/

namespace Sys2Proof.Machine

/-! ### The order of two entries -/

section
variable {now : Time} {x y z e : QueueEntry}

theorem standsAfter_iff : standsAfter now x y = true ↔ clockDiff y.planned now < clockDiff x.planned now ∨
    (clockDiff y.planned now = clockDiff x.planned now ∧ y.key.val < x.key.val) := decide_eq_true_iff

theorem standsAfter_asymm (after : standsAfter now x y = true) : standsAfter now y x = false := by
  rw [← Bool.not_eq_true, standsAfter_iff]
  rw [standsAfter_iff] at after
  omega

theorem standsAfter_trans (after : standsAfter now x y = true) (further : standsAfter now y z = true) :
    standsAfter now x z = true := by
  rw [standsAfter_iff] at after further ⊢
  omega

/-- What stands in front of an entry stands in front of all that the entry does not stand after. -/
theorem standsAfter_of_between (after : standsAfter now x e = true) (ordered : standsAfter now x y = false) :
    standsAfter now e y = false := by
  cases late : standsAfter now e y with
  | false => rfl
  | true => exact (standsAfter_trans after late).symm.trans ordered

end

/-! ### A new entry -/

section
variable (now : Time) (e : QueueEntry)

/-- The place of a new entry is that of an insertion by the order of the queue. -/
theorem placeEntry_eq_orderedInsert (q : List QueueEntry) :
    placeEntry now e q = q.orderedInsert (fun e x => standsAfter now x e = true) e := by
  induction q with
  | nil => rfl
  | cons x q ih => rw [placeEntry, ih, List.orderedInsert_cons]

/-- A new entry joins the queue and every other stays. -/
theorem placeEntry_perm (q : List QueueEntry) : (placeEntry now e q).Perm (e :: q) := by
  rw [placeEntry_eq_orderedInsert]
  exact List.perm_orderedInsert _ e q

/-- A new entry keeps the order: it stands in front of the first entry that stands after it. -/
theorem placeEntry_ordered {q : List QueueEntry} (ordered : q.Pairwise fun x y => standsAfter now x y = false) :
    (placeEntry now e q).Pairwise fun x y => standsAfter now x y = false := by
  induction q with
  | nil => exact List.pairwise_singleton _ _
  | cons x q ih =>
    obtain ⟨first, rest⟩ := List.pairwise_cons.mp ordered
    rw [placeEntry]
    cases after : standsAfter now x e with
    | true =>
      refine List.pairwise_cons.mpr ⟨fun y later => ?_, ordered⟩
      rcases List.mem_cons.mp later with rfl | later
      · exact standsAfter_asymm after
      · exact standsAfter_of_between after (first y later)
    | false =>
      refine List.pairwise_cons.mpr ⟨fun y later => ?_, ih rest⟩
      rcases List.mem_cons.mp ((placeEntry_perm now e q).mem_iff.mp later) with rfl | later
      · exact after
      · exact first y later

/-- A new entry moves no other: without it the queue is as it was. -/
theorem filter_placeEntry {q : List QueueEntry} (new : e ∉ q) : (placeEntry now e q).filter (fun x => x ≠ e) = q := by
  have kept : ∀ {l : List QueueEntry}, e ∉ l → l.filter (fun x => x ≠ e) = l := fun new =>
    List.filter_eq_self.mpr fun x listed => decide_eq_true fun same => new (same ▸ listed)
  induction q with
  | nil => simp [placeEntry]
  | cons x q ih =>
    have other : x ≠ e := fun same => new (same ▸ List.mem_cons_self)
    rw [placeEntry]
    split
    · rw [List.filter_cons_of_neg (p := fun x => decide (x ≠ e)) (by simp), kept new]
    · rw [List.filter_cons_of_pos (p := fun x => decide (x ≠ e)) (decide_eq_true other),
        ih fun listed => new (List.mem_cons_of_mem x listed)]

end

/-- Settles O33: the order, the members and the other entries after an insertion, by induction on the queue. -/
theorem strikeQueueStaysOrdered : Obligations.StrikeQueueStaysOrdered := fun now e q ordered =>
  ⟨placeEntry_ordered now e ordered, placeEntry_perm now e q, filter_placeEntry now e⟩

end Sys2Proof.Machine
end

section
/-! Every step keeps the strike queue holding exactly the keys in PENDING (06_strike_computation R117). -/

namespace Sys2Proof.Machine

/-! ### The queue and the phases of the keys -/

/-- The planned launch that a phase gives its key in the strike queue: that of a PENDING note. -/
def plannedOf : KeyPhase → Option Time
  | .pending _ v => some v.planned
  | _ => none

theorem plannedOf_of_still {p : KeyPhase} (still : isPending p = false) : plannedOf p = none := by
  cases p with
  | pending n v => cases still
  | _ => rfl

theorem plannedOf_eq_some_iff {p : KeyPhase} {t : Time} :
    plannedOf p = some t ↔ ∃ n v, p = .pending n v ∧ t = v.planned := by
  cases p with
  | pending n v =>
    refine ⟨fun planned => ⟨n, v, rfl, (Option.some.inj planned).symm⟩, ?_⟩
    rintro ⟨_, _, ⟨⟩, rfl⟩
    rfl
  | _ => exact ⟨nofun, nofun⟩

/-- The queue holds each key once, and exactly the entries that the phases of the keys call for. -/
theorem queueSafe_iff {s : State} : QueueSafe s ↔ (s.queue.entries.map QueueEntry.key).Nodup ∧
    ∀ e : QueueEntry, e ∈ s.queue.entries ↔ plannedOf (s.key e.key).phase = some e.planned := by
  refine and_congr_right fun _ => ⟨?calledFor, ?holds⟩
  case calledFor =>
    rintro ⟨listed, waiting⟩ e
    refine ⟨fun queued => plannedOf_eq_some_iff.mpr (listed e queued), fun planned => ?_⟩
    obtain ⟨n, v, pending, time⟩ := plannedOf_eq_some_iff.mp planned
    obtain ⟨e', queued, key⟩ := List.mem_map.mp (waiting e.key (by rw [pending]; rfl))
    obtain ⟨n', v', pending', time'⟩ := listed e' queued
    rw [key, pending] at pending'
    cases pending'
    obtain ⟨k, planned⟩ := e
    obtain ⟨k', planned'⟩ := e'
    cases key
    cases time
    cases time'
    exact queued
  case holds =>
    intro called
    refine ⟨fun e queued => plannedOf_eq_some_iff.mp ((called e).mp queued), fun k pending => ?_⟩
    cases phase : (s.key k).phase with
    | pending n v =>
      have queued := (called { key := k, planned := v.planned }).mpr (congrArg plannedOf phase)
      exact List.mem_map_of_mem queued
    | _ =>
      rw [phase] at pending
      cases pending

theorem withoutKey_mem_iff {k : Key} {e : QueueEntry} {q : List QueueEntry} :
    e ∈ withoutKey k q ↔ e ∈ q ∧ e.key ≠ k := by
  simp [withoutKey]

theorem withoutKey_keys_sublist (k : Key) (q : List QueueEntry) :
    ((withoutKey k q).map QueueEntry.key).Sublist (q.map QueueEntry.key) := List.filter_sublist.map _

namespace QueueSafe

variable {s s' : State} {k : Key}

/-! ### Changes of the keys and of the queue -/

/-- An event that leaves the planned launch of every key and the entries as they were keeps the queue. -/
theorem of_planned (h : QueueSafe s) (planned : ∀ j, plannedOf (s'.key j).phase = plannedOf (s.key j).phase)
    (entries : s'.queue.entries = s.queue.entries) : QueueSafe s' := by
  obtain ⟨once, called⟩ := queueSafe_iff.mp h
  refine queueSafe_iff.mpr ⟨by rw [entries]; exact once, fun e => ?_⟩
  rw [entries, planned]
  exact called e

/-- An event on other blocks keeps the queue. -/
theorem same (h : QueueSafe s) (keys : s'.keys = s.keys := by rfl) (queue : s'.queue = s.queue := by rfl) :
    QueueSafe s' :=
  h.of_planned (fun j => by rw [State.key, keys]; rfl) (by rw [queue])

/-- An empty queue is right when no key is in PENDING. -/
theorem of_silent (empty : s.queue.entries = []) (still : ∀ j, isPending (s.key j).phase = false) : QueueSafe s := by
  refine queueSafe_iff.mpr ⟨by rw [empty]; exact List.nodup_nil, fun e => ?_⟩
  rw [empty, plannedOf_of_still (still e.key)]
  exact ⟨nofun, nofun⟩

theorem setKey (h : QueueSafe s) {r : KeyRecord} (planned : plannedOf r.phase = plannedOf (s.key k).phase) :
    QueueSafe (s.setKey k r) := by
  refine h.of_planned (fun j => ?_) rfl
  rw [State.key_setKey]
  split
  · rename_i own
    rw [planned, own]
  · rfl

theorem setPhase (h : QueueSafe s) {p : KeyPhase} (planned : plannedOf p = plannedOf (s.key k).phase) :
    QueueSafe (s.setPhase k p) := h.setKey planned

/-- A key outside PENDING keeps the queue as long as it stays outside. -/
theorem move (h : QueueSafe s) {p p' : KeyPhase} (phase : (s.key k).phase = p) (before : isPending p = false)
    (after : isPending p' = false) : QueueSafe (s.setPhase k p') :=
  h.setPhase (by rw [phase, plannedOf_of_still before, plannedOf_of_still after])

/-- A key leaves PENDING, and its entry the queue (R117). -/
theorem leave (h : QueueSafe s) {r : KeyRecord} (still : isPending r.phase = false) :
    QueueSafe ((s.setKey k r).setEntries (withoutKey k s.queue.entries)) := by
  obtain ⟨once, called⟩ := queueSafe_iff.mp h
  refine queueSafe_iff.mpr ⟨once.sublist (withoutKey_keys_sublist k _), fun e => ?_⟩
  rw [State.setEntries_key, State.key_setKey, State.setEntries_queue, withoutKey_mem_iff]
  split
  · rename_i own
    rw [plannedOf_of_still still]
    exact ⟨fun ⟨_, other⟩ => absurd own.symm other, nofun⟩
  · rename_i other
    rw [called e]
    exact and_iff_left (Ne.symm other)

/-- A key enters PENDING, and its entry the queue in place of the one it has (R83, R86, R117). -/
theorem enterPending (h : QueueSafe s) (k : Key) (n : Note) (v : StrikeValues) : QueueSafe (enterPending k n v s) := by
  obtain ⟨once, called⟩ := queueSafe_iff.mp h
  have placed := placeEntry_perm s.clock { key := k, planned := v.planned } (withoutKey k s.queue.entries)
  refine queueSafe_iff.mpr ⟨(placed.map QueueEntry.key).nodup_iff.mpr (List.nodup_cons.mpr ⟨?absent, ?others⟩),
    fun e => placed.mem_iff.trans ?_⟩
  case absent =>
    intro listed
    obtain ⟨e, queued, own⟩ := List.mem_map.mp listed
    exact (withoutKey_mem_iff.mp queued).2 own
  case others => exact once.sublist (withoutKey_keys_sublist k _)
  rw [enterPending_key, List.mem_cons, withoutKey_mem_iff, called e]
  obtain ⟨j, planned⟩ := e
  by_cases own : k = j
  · subst own
    simp [plannedOf, eq_comm]
  · simp [own, Ne.symm own]

/-- Every phase replaced at once by functions that bring no key into PENDING and no other planned launch (R117). -/
theorem updatePhases (h : QueueSafe s) {f : Key → KeyRecord → KeyPhase}
    (kept : ∀ k, isPending (f k (s.key k)) = true → f k (s.key k) = (s.key k).phase) :
    QueueSafe (updatePhases f s) := by
  obtain ⟨once, called⟩ := queueSafe_iff.mp h
  refine queueSafe_iff.mpr ⟨once.sublist (List.filter_sublist.map _), fun e => ?_⟩
  have listed : e ∈ (Machine.updatePhases f s).queue.entries ↔
      e ∈ s.queue.entries ∧ isPending ((Machine.updatePhases f s).key e.key).phase = true := List.mem_filter
  rw [listed, updatePhases_key, called e]
  dsimp only
  cases pending : isPending (f e.key (s.key e.key)) with
  | true =>
    rw [kept e.key pending]
    exact and_iff_left rfl
  | false =>
    rw [plannedOf_of_still pending]
    exact ⟨nofun, nofun⟩

/-- An event on one key after another keeps the queue when each does. -/
theorem foldl_keys (h : QueueSafe s) {f : Key → State → State} (each : ∀ k s, QueueSafe s → QueueSafe (f k s))
    (keys : List Key) : QueueSafe (keys.foldl (fun t k => f k t) s) :=
  List.foldlRecOn keys _ h fun t kept k _ => each k t kept

theorem raise (h : QueueSafe s) (kind : NoticeKind) (fields : List Byte) : QueueSafe (s.raise kind fields) :=
  h.same (s.raise_keys kind fields) (s.raise_queue kind fields)

theorem setHalf (h : QueueSafe s) (half : Half) (c : HalfContext) : QueueSafe (s.setHalf half c) :=
  h.same (s.setHalf_keys half c) (s.setHalf_queue half c)

theorem setPedal (h : QueueSafe s) (p : Pedal) (r : PedalRecord) : QueueSafe (s.setPedal p r) :=
  h.same (s.setPedal_keys p r) (s.setPedal_queue p r)

/-! ### The examination of the head (R118 to R121) -/

theorem launchKey (h : QueueSafe s) (mode : LaunchMode) (k : Key) : QueueSafe (launchKey mode k s) :=
  h.leave (launchedRecord_not_pending s mode (s.key k))

theorem setStatus (h : QueueSafe s) (status : HeadStatus) : QueueSafe (s.setStatus status) :=
  h.of_planned (fun _ => rfl) rfl

theorem examineLoop (h : QueueSafe s) (n : Nat) : QueueSafe (examineLoop n s) := by
  induction n generalizing s with
  | zero => exact h
  | succ n ih =>
    unfold Machine.examineLoop
    split
    · exact h.setStatus _
    · split
      · split
        · exact ih (h.launchKey _ _)
        · exact h.setStatus _
      · exact h.setStatus _

theorem examineHead (h : QueueSafe s) : QueueSafe (examineHead s) := h.examineLoop _

theorem reexamineHead (h : QueueSafe s) : QueueSafe (reexamineHead s) := by
  rcases reexamineHead_spec s with e | e <;> rw [e]
  · exact h
  · exact h.examineHead

/-- The one examination after an event keeps what the event keeps (R132). -/
theorem settling {f : State → State} (h : QueueSafe (f s)) (placed : Option Key) : QueueSafe (settling placed f s) := by
  rcases settling_spec placed f s with e | e <;> rw [e]
  · exact h
  · exact h.examineHead

/-! ### Claims and closes (R81 to R88) -/

theorem levelNote (h : QueueSafe s) (c : Claim) : QueueSafe (levelNote c s).1 := by
  unfold Machine.levelNote
  cases c.level with
  | roll onset accent => exact h.setHalf _ _
  | given level => exact h
  | follow => exact h

theorem placeNote (h : QueueSafe s) (k : Key) (n : Note) : QueueSafe (placeNote k n s) := h.enterPending k _ _

theorem takeClaim (h : QueueSafe s) (c : Claim) : QueueSafe (takeClaim c s) := by
  have levelled := h.levelNote c
  unfold Machine.takeClaim
  split
  rename_i s1 n answer
  rw [answer] at levelled
  split
  · exact levelled.placeNote _ _
  · exact levelled.placeNote _ _
  · rename_i phase; exact levelled.move phase rfl rfl
  · rename_i phase; exact levelled.move phase rfl rfl
  · rename_i phase; exact levelled.move phase rfl rfl
  · rename_i phase; exact levelled.move phase rfl rfl
  · rename_i phase; exact levelled.move phase rfl rfl
  · exact h

theorem claim (h : QueueSafe s) (c : Claim) : QueueSafe (claim c s).1 := by
  rcases claim_spec c s with ⟨-, e⟩ | ⟨-, -, e⟩ | ⟨-, -, -, e⟩ | ⟨-, -, -, e⟩ <;> rw [e]
  · exact h
  · exact h
  · exact h
  · exact (h.takeClaim c).settling _

theorem closeKey (h : QueueSafe s) (o : Owner) (release : Time) (k : Key) : QueueSafe (closeKey o release k s) := by
  unfold Machine.closeKey
  split
  · rw [storeRelease_eq]
    refine h.setPhase ?_
    cases (s.key k).phase with
    | strike n v l sensed t m => cases m <;> rfl
    | hold n v l d start => dsimp only [releasedPhase]; split <;> rfl
    | _ => rfl
  · exact h

theorem closeAll (h : QueueSafe s) (o : Owner) (release : Time) : QueueSafe (closeAll o release s) :=
  h.foldl_keys (fun k _ kept => kept.closeKey o release k) allKeys

/-! ### Withdrawal and silence (R97, R100, R101, R106, R107) -/

theorem withdrawSource (h : QueueSafe s) (source : Source) : QueueSafe (withdrawSource source s) :=
  h.updatePhases fun k pending => by
    split at pending
    · rw [withdrawnPhase_not_pending] at pending
      cases pending
    · rename_i other
      exact if_neg other

theorem silenceKeys (h : QueueSafe s) : QueueSafe (silenceKeys s) :=
  h.updatePhases fun k pending => by
    rw [(silencedPhase_silent _ _).1] at pending
    cases pending

theorem silenceOutside (h : QueueSafe s) (source : Source) (low high : Nat) :
    QueueSafe (silenceOutside source low high s) :=
  h.updatePhases fun k pending => by
    split at pending
    · rw [(silencedPhase_silent _ _).1] at pending
      cases pending
    · rename_i other
      exact if_neg other

theorem cancelNote (h : QueueSafe s) (k : Key) : QueueSafe (cancelNote k s) :=
  h.leave (withdrawnPhase_not_pending _ _ _)

theorem retireKey (h : QueueSafe s) (k : Key) (reason : RetireReason) : QueueSafe (retireKey k reason s) :=
  QueueSafe.raise (h.leave rfl) _ _

/-! ### Strike ends and the hold timeout (R90, R91, R94a, R126) -/

theorem endStrike (h : QueueSafe s) (k : Key) : QueueSafe (endStrike k s) := by
  unfold Machine.endStrike
  split
  · rename_i phase; exact h.move phase rfl rfl
  · rename_i phase
    split
    · exact h.move phase rfl rfl
    · split
      · exact (h.move phase rfl rfl).raise _ _
      · exact h.move phase rfl rfl
  · exact h

theorem missStrike (h : QueueSafe s) (k : Key) : QueueSafe (missStrike k s) := by
  have counted : QueueSafe (s.setKey k { s.key k with missCount := (s.key k).missCount + 1 }) := h.setKey rfl
  unfold Machine.missStrike
  dsimp only
  split
  · exact counted.retireKey k _
  · exact counted.endStrike k

theorem unsenseStrike (h : QueueSafe s) (k : Key) : QueueSafe (unsenseStrike k s) := by
  unfold Machine.unsenseStrike
  split
  · rename_i n v l _ _ m phase
    have unsensed : QueueSafe (s.setPhase k (.strike n v l false (unsensedEnd v l) m)) :=
      h.move phase rfl rfl
    dsimp only
    split
    · exact unsensed.endStrike k
    · exact unsensed
  · exact h

theorem timeOutKey (h : QueueSafe s) (k : Key) : QueueSafe (timeOutKey k s) := by
  unfold Machine.timeOutKey
  split
  · rename_i phase; exact (h.move phase rfl rfl).raise _ _
  · exact h

theorem timeOutIfDue (h : QueueSafe s) (k : Key) : QueueSafe (timeOutIfDue k s) := by
  unfold Machine.timeOutIfDue
  split
  · split
    · exact h.timeOutKey k
    · exact h
  · exact h

/-! ### The clock (log 3, 4) -/

theorem arriveLoop (h : QueueSafe s) (n : Nat) (t : Time) : QueueSafe (arriveLoop n t s) := by
  induction n generalizing s with
  | zero => exact h
  | succ n ih =>
    unfold Machine.arriveLoop
    split
    · exact h
    · rename_i o k _
      have moved : QueueSafe (s.atTime (timePlus s.clock o)) := h
      exact ih ((moved.timeOutKey k).settling none)

theorem arrive (h : QueueSafe s) (t : Time) : QueueSafe (s.arrive t) := by
  obtain ⟨port, served⟩ := serveKeyFinds_frame s.port.intake.length s
  rw [State.arrive, served]
  have found : QueueSafe { s with port := port } := h
  exact found.arriveLoop 88 t

end QueueSafe

end Sys2Proof.Machine
end

section
/-! What the commands make of the strike queue, block by block, and the step (06_strike_computation R117). -/

namespace Sys2Proof.Machine

namespace QueueSafe

variable {s : State}

/-! ### The scan receiver and the tracker -/

theorem rollPedalEvent (h : QueueSafe s) (p : Pedal) (time : Time) (target : Nat) :
    QueueSafe (rollPedalEvent p time target s) := by
  unfold Machine.rollPedalEvent
  dsimp only
  split
  · exact (h.setPedal p _).setPedal p _
  · exact h

theorem rollNoteOpen (h : QueueSafe s) (c : Channel) (k : Key) (onsetLine : LineNo) (onsetTime : Time) :
    QueueSafe (rollNoteOpen c k onsetLine onsetTime s) := by
  unfold Machine.rollNoteOpen
  dsimp only
  split
  · exact h.claim _
  · exact (h.claim _).same

theorem sendControl (h : QueueSafe s) (c : Channel) (e : ApertureEvent) : QueueSafe (sendControl c e s) := by
  unfold Machine.sendControl
  split
  · exact h.setHalf _ _
  · exact h.setHalf _ _
  · exact h

theorem sendNoteClose (h : QueueSafe s) (c : Channel) (e : ApertureEvent) : QueueSafe (sendNoteClose c e s) := by
  unfold Machine.sendNoteClose
  split
  · exact (h.closeKey _ _ _).settling none
  · exact h

theorem sendNoteOpen (h : QueueSafe s) (c : Channel) (e : ApertureEvent) : QueueSafe (sendNoteOpen c e s) := by
  unfold Machine.sendNoteOpen
  split
  · exact h.rollNoteOpen _ _ _ _
  · exact h

theorem sendPedal (h : QueueSafe s) (c : Channel) (e : ApertureEvent) : QueueSafe (sendPedal c e s) := by
  unfold Machine.sendPedal
  split
  · exact h.rollPedalEvent _ _ _
  · exact h.rollPedalEvent _ _ _
  · exact h

theorem sendGroup (h : QueueSafe s) {send : Channel → ApertureEvent → State → State}
    (each : ∀ {s} c e, QueueSafe s → QueueSafe (send c e s)) (events : List (Channel × ApertureEvent)) :
    QueueSafe (sendGroup send events s) :=
  List.foldlRecOn events _ h fun _ kept e _ => each e.1 e.2 kept

theorem takeSampledLine (h : QueueSafe s) (line : LineNo) (time : Time) (states : Vector Bool 102) :
    QueueSafe (takeSampledLine line time states s) := by
  refine sendGroup (sendGroup (sendGroup (sendGroup h.same ?_ _) ?_ _) ?_ _) ?_ _
  · exact fun c e kept => kept.sendControl c e
  · exact fun c e kept => kept.sendNoteClose c e
  · exact fun c e kept => kept.sendNoteOpen c e
  · exact fun c e kept => kept.sendPedal c e

theorem rollWithdrawal (h : QueueSafe s) : QueueSafe (rollWithdrawal s) :=
  ((h.withdrawSource .roll).settling none).same

/-- A departure from LOCKED withdraws the roll (R29, R31). -/
theorem departure (h : QueueSafe s) (t : Tracker) :
    QueueSafe (stopLineTimer (Machine.rollWithdrawal (emptyApertures (s.setTracker t)))) := by
  have emptied : QueueSafe (emptyApertures (s.setTracker t)) := h
  exact emptied.rollWithdrawal.same

theorem stopFromLocked (h : QueueSafe s) : QueueSafe (stopFromLocked s) := h.departure _

theorem enterLost (h : QueueSafe s) (reason : LossReason) (line : LineNo) : QueueSafe (enterLost reason line s) :=
  (h.departure _).raise _ _

theorem rollEnd (h : QueueSafe s) (line : LineNo) : QueueSafe (rollEnd line s) :=
  (h.stopFromLocked.same).raise _ _

theorem seekLine (h : QueueSafe s) (ln : CompletedLine) : QueueSafe (seekLine ln s) := by
  unfold Machine.seekLine
  dsimp only
  split
  · exact h.same.raise _ _
  · exact h

theorem sendHeldLines (h : QueueSafe s) (ln : CompletedLine) (left : Nat) : QueueSafe (sendHeldLines ln left s) := by
  induction left generalizing s with
  | zero => exact h
  | succ left ih => exact ih (h.takeSampledLine _ _ _)

theorem sampleLine (h : QueueSafe s) (ln : CompletedLine) : QueueSafe (sampleLine ln s) := by
  unfold Machine.sampleLine
  extract_lets states marks
  split
  · exact h.rollEnd _
  · exact takeSampledLine h.same _ _ _

theorem followLine (h : QueueSafe s) (ln : CompletedLine) : QueueSafe (followLine ln s) := by
  have followed : QueueSafe (s.setTracker (s.tracker.follow ln)) := h
  unfold Machine.followLine
  dsimp only
  split
  · exact (followed.enterLost _ _).seekLine ln
  · exact followed.sampleLine ln

theorem lockedLine (h : QueueSafe s) (ln : CompletedLine) : QueueSafe (lockedLine ln s) := by
  unfold Machine.lockedLine
  split
  · exact (h.enterLost _ _).seekLine ln
  · exact (h.sendHeldLines ln _).followLine ln

theorem takeLine (h : QueueSafe s) (ln : CompletedLine) : QueueSafe (takeLine ln s) := by
  have marked : QueueSafe (if ln.mark then applyRestartMark s else s) := by
    rw [applyRestartMark_eq]
    split <;> exact h
  unfold Machine.takeLine
  dsimp only
  split
  · exact marked
  · exact seekLine marked.same ln
  · exact seekLine marked.same ln
  · exact lockedLine marked.same ln

theorem storeLine (h : QueueSafe s) (c : CurrentLine) : QueueSafe (storeLine c s) := by
  have stored : QueueSafe (s.setScan { s.scan with current := some c }) := h
  unfold Machine.storeLine
  dsimp only
  split
  · exact (stored.takeLine _).same
  · exact stored

theorem takeSegment (h : QueueSafe s) (lane : Fin 4) (line : LineNo) (payload : LanePixels) :
    QueueSafe (takeSegment lane line payload s) := by
  unfold Machine.takeSegment
  split
  · exact h
  · split
    · split
      · exact h
      · exact storeLine h.same _
    · split
      · exact h.storeLine _
      · exact storeLine h.same _
      · exact h

theorem takeHeader (h : QueueSafe s) (lane : Fin 4) (header : BitVec 24) (bytes : List Byte) :
    QueueSafe (takeHeader lane header bytes s) := by
  unfold Machine.takeHeader
  split
  · exact h
  · split
    · exact h
    · exact h.takeSegment _ _ _

theorem checkSegment (h : QueueSafe s) (lane : Fin 4) (bytes : List Byte) : QueueSafe (checkSegment lane bytes s) := by
  unfold Machine.checkSegment
  split
  · exact h.takeHeader _ _ _
  · exact takeHeader h.same _ _ _
  · exact h

theorem takeBurst (h : QueueSafe s) (lane : Fin 4) (bytes : List Byte) : QueueSafe (takeBurst lane bytes s) := by
  have emptied : QueueSafe (s.setScan { s.scan with buffers := s.scan.buffers.set lane [] }) := h
  unfold Machine.takeBurst
  dsimp only
  split
  · exact h
  · split
    · exact h
    · split
      · exact emptied.checkSegment lane _
      · exact h

theorem takeBurstOn (h : QueueSafe s) (lane : Nat) (bytes : List Byte) : QueueSafe (takeBurstOn lane bytes s) := by
  unfold Machine.takeBurstOn
  split
  · exact h.takeBurst _ bytes
  · exact h

theorem expireLineTimer (h : QueueSafe s) : QueueSafe (expireLineTimer s) := by
  unfold Machine.expireLineTimer
  split
  · split
    · unfold reportSilent
      split
      · exact enterLost h.same _ _
      · exact h
    · exact h
  · exact h

/-! ### The timers of the keys -/

theorem onKey (h : QueueSafe s) {f : Key → State → State} (each : ∀ k, QueueSafe (f k s)) (number : Nat) :
    QueueSafe (onKey number f s) := by
  unfold Machine.onKey
  split
  · exact each _
  · exact h

theorem expireHeadTimer (h : QueueSafe s) : QueueSafe (expireHeadTimer s) := by
  unfold Machine.expireHeadTimer
  split
  · split
    · exact h.examineHead
    · exact h
  · exact h

theorem expireStrike (h : QueueSafe s) (k : Key) : QueueSafe (expireStrike k s) := by
  unfold Machine.expireStrike
  split
  · split
    · refine settling ?_ none
      split
      · exact h.missStrike k
      · exact h.endStrike k
    · exact h
  · exact h

theorem endGap (h : QueueSafe s) (k : Key) : QueueSafe (endGap k s) := by
  unfold Machine.endGap
  split
  · rename_i phase
    split
    · exact h.move phase rfl rfl
    · exact h
  · split
    · exact (h.placeNote k _).settling _
    · exact h
  · exact h

theorem reachRelease (h : QueueSafe s) (k : Key) : QueueSafe (reachRelease k s) := by
  unfold Machine.reachRelease
  split
  · rename_i phase
    split
    · exact settling (h.move phase rfl rfl) none
    · exact h
  · exact h

/-! ### The steps of expression, heat and pedals -/

theorem stepExpression (h : QueueSafe s) : QueueSafe (stepExpression s) := by
  unfold Machine.stepExpression
  split
  · split <;> exact h
  · exact h

theorem heatKey (h : QueueSafe s) (k : Key) : QueueSafe (heatKey k s) := by
  have heated : QueueSafe (s.setHeat k (heatedFigure (s.heatOf k) (driveLevel s k))) := h
  unfold Machine.heatKey guardHold
  split
  · rename_i phase
    split
    · exact (heated.move phase rfl rfl).raise _ _
    · exact heated.move phase rfl rfl
  · exact heated

theorem stepHeat (h : QueueSafe s) : QueueSafe (stepHeat s) := by
  have heated (s : State) (h : QueueSafe s) : QueueSafe (heatKeys (loadThresholds s)) :=
    foldl_keys h.same (fun k _ kept => kept.heatKey k) allKeys
  unfold Machine.stepHeat
  split
  · split
    · unfold heatWork
      dsimp only
      split
      · exact (heated _ h.same).reexamineHead
      · exact heated _ h.same
    · exact h
  · exact h

theorem faultPedal (h : QueueSafe s) (p : Pedal) (start : Time) : QueueSafe (faultPedal p start s) :=
  (h.setPedal p _).raise _ _

theorem stepPedal (h : QueueSafe s) (p : Pedal) : QueueSafe (stepPedal p s) := by
  rcases stepPedal_spec p s with ⟨-, e⟩ | ⟨-, mode, request, -, e⟩ | ⟨-, -, -, e⟩ <;> rw [e]
  · exact h
  · exact h.setPedal p _
  · exact h.faultPedal p _

theorem stepServo (h : QueueSafe s) : QueueSafe (stepServo s) := by
  have stepped (s : State) (h : QueueSafe s) : QueueSafe (Machine.stepPedal .shift (Machine.stepPedal .sustain s)) :=
    (h.stepPedal _).stepPedal _
  unfold Machine.stepServo
  split
  · split
    · unfold servoWork
      dsimp only
      split
      · exact (stepped _ h.same).reexamineHead
      · exact stepped _ h.same
    · exact h
  · exact h

theorem settleTimeout (h : QueueSafe s) (p : Pedal) : QueueSafe (settleTimeout p s) := by
  unfold Machine.settleTimeout
  split
  · split
    · exact (h.faultPedal p _).reexamineHead
    · exact h
  · exact h

/-! ### The hammer line -/

theorem applyLearning (h : QueueSafe s) (k : Key) (v : StrikeValues) (l : Launch) (velocity : Nat) (flight : Int) :
    QueueSafe (applyLearning k v l velocity flight s) := by
  unfold Machine.applyLearning
  split
  · exact h.same
  · exact h

theorem takeHammer (h : QueueSafe s) (k : Key) (dt : Nat) (reportTime : Time) :
    QueueSafe (takeHammer k dt reportTime s) := by
  unfold Machine.takeHammer
  split
  · rename_i v l _ _ _
    split
    · exact h.retireKey k _
    · extract_lets velocity learned
      have kept : QueueSafe learned := h.applyLearning k v l _ _
      have measured : QueueSafe (learned.setKey k
          { learned.key k with missCount := 0, lastVelocity := some velocity }) := kept.setKey rfl
      exact measured.endStrike k
  · exact h

theorem takeReport (h : QueueSafe s) (b0 b1 b2 b3 : Byte) : QueueSafe (takeReport b0 b1 b2 b3 s) := by
  have pedal (p : Pedal) (position : Nat) : QueueSafe (checkedPedalReport p position s) := by
    unfold checkedPedalReport
    split
    · exact h
    · exact h.setPedal p _
  unfold Machine.takeReport
  split
  · exact h
  · split
    · unfold hammerReport
      split
      · exact (h.takeHammer _ _ _).settling none
      · exact h
    · split
      · exact pedal _ _
      · split
        · exact pedal _ _
        · exact h

theorem receiveByte (h : QueueSafe s) (b : Byte) : QueueSafe (receiveByte b s) := by
  unfold Machine.receiveByte
  split
  · exact h
  · split
    · exact h
    · split
      · exact h
      · exact h
      · exact h
      · exact takeReport h.same _ _ _ _
      · exact h

theorem completeReport (h : QueueSafe s) (b : Byte) : QueueSafe (completeReport b s) := by
  unfold Machine.completeReport
  split
  · exact h.receiveByte b
  · exact h

theorem endBurst (h : QueueSafe s) : QueueSafe (endBurst s) := by
  unfold Machine.endBurst
  dsimp only
  split
  · exact h
  · split <;> exact h

/-! ### The cue player -/

theorem applyOn (h : QueueSafe s) (key : Key) (cueId : Byte) (level : CueLevel) (time : Time) :
    QueueSafe (applyOn key cueId level time s) := by
  have opened : QueueSafe (s.setCue { s.cue with phraseOpen := true }) := h
  unfold Machine.applyOn
  dsimp only
  split
  · exact h
  · split
    · exact opened.claim _
    · exact (opened.claim _).same

theorem applyOff (h : QueueSafe s) (key : Option Key) (cueId : Byte) (time : Time) :
    QueueSafe (applyOff key cueId time s) := by
  cases key with
  | none => exact (h.closeAll _ _).settling none
  | some k => exact (h.closeKey _ _ _).settling none

theorem cuePedal (h : QueueSafe s) (p : Pedal) (position : Nat) : QueueSafe (cuePedal p position s).1 := by
  rcases cuePedal_spec p position s with ⟨-, e⟩ | ⟨-, -, -, e⟩ | ⟨-, e⟩ <;> rw [e]
  · exact h
  · exact h
  · exact h.setPedal p _

theorem applyEntry (h : QueueSafe s) (e : CueEntry) : QueueSafe (applyEntry e s) := by
  cases e with
  | on key cueId level time => exact h.applyOn key cueId level time
  | off key cueId time => exact h.applyOff key cueId time
  | pedal p position time =>
    have set := h.cuePedal p position
    unfold Machine.applyEntry applyPedal
    dsimp only
    split
    · exact set
    · exact set.same
  | endPhrase time => exact h

theorem lowWaterTest (h : QueueSafe s) : QueueSafe (lowWaterTest s) := by
  unfold Machine.lowWaterTest
  split
  · exact h.raise _ _
  · exact h

theorem underrunTest (h : QueueSafe s) : QueueSafe (underrunTest s) := by
  unfold Machine.underrunTest
  split
  · exact (((h.withdrawSource .cue).settling none).same).raise _ _
  · exact h

theorem applyHead (h : QueueSafe s) (e : CueEntry) (rest : List CueEntry) : QueueSafe (applyHead e rest s) :=
  (applyEntry h.same e).lowWaterTest.underrunTest

theorem serviceLoop (h : QueueSafe s) (n : Nat) : QueueSafe (serviceLoop n s) := by
  induction n generalizing s with
  | zero => exact h
  | succ n ih =>
    unfold Machine.serviceLoop
    split
    · exact h
    · split
      · exact ih (h.applyHead _ _)
      · exact h

theorem serviceCue (h : QueueSafe s) : QueueSafe (serviceCue s) := h.serviceLoop _

/-! ### Resets and the image load -/

/-- With the keys at their full reset values an empty queue is right (R108, R128). -/
theorem of_reset (keys : s.keys = Vector.replicate 88 KeyRecord.atReset) (empty : s.queue.entries = []) :
    QueueSafe s :=
  of_silent empty fun j => by
    rw [State.key, keys, Fin.getElem_fin, Vector.getElem_replicate]
    rfl

theorem fullResetState (lines : InputLines) (s : State) : QueueSafe (fullResetState lines s) := of_reset rfl rfl

theorem completeLoad (h : QueueSafe s) (acked : Bool) (framed : LaneSet) : QueueSafe (completeLoad acked framed s) := by
  have started (settings : Settings) (voicing : Vector VoicingRecord 88) (outcome : ImageOutcome) :
      QueueSafe (startBlocks framed settings voicing outcome s) := of_reset rfl rfl
  unfold Machine.completeLoad
  split
  · exact h
  · unfold noticeLoad
    split
    · split
      · exact (started _ _ _).raise _ _
      · exact started _ _ _
    · exact (started _ _ _).raise _ _

theorem performanceResetState (s : State) : QueueSafe (performanceResetState s) :=
  of_silent rfl fun j => by
    show isPending ((mapTable (fun _ r => { r with phase := performancePhase r.phase }) s.keys)[j]).phase = false
    rw [mapTable_get]
    cases phase : s.keys[j].phase <;> rfl

/-! ### The requests (R195) -/

/-- A request executed keeps what its effect keeps. -/
theorem serveRequest (h : QueueSafe s) {act : List Byte → State → Answer}
    (effect : ∀ arguments {u}, QueueSafe u → QueueSafe (act arguments u).state) (code : Nat) (whileLoading : Bool) :
    QueueSafe (serveRequest code whileLoading act s) := by
  have headless : QueueSafe s.dropHead := h
  rcases serveRequest_cases s code whileLoading act with e | ⟨f, -, -, -, -, ⟨-, -, e⟩ | ⟨-, e⟩⟩ <;> rw [e]
  · exact h
  · exact h
  · exact (effect _ headless).same

end QueueSafe

end Sys2Proof.Machine
end

section
/-! The requests and the step: none leaves the strike queue with other entries than the keys in PENDING call for
(06_strike_computation R117). -/

namespace Sys2Proof.Machine

namespace QueueSafe

variable {s : State}

/-! ### The key table (R95 to R103) -/

theorem actPlayOpen (h : QueueSafe s) (arguments : List Byte) : QueueSafe (actPlayOpen arguments s).state := by
  unfold Machine.actPlayOpen
  split
  · split
    · exact h
    · split
      · exact h
      · unfold openNote
        dsimp only
        split
        · exact h.claim _
        · exact h
        · exact h
        · exact h
  · exact h

theorem actPlayClose (h : QueueSafe s) (arguments : List Byte) : QueueSafe (actPlayClose arguments s).state := by
  unfold Machine.actPlayClose
  split
  · exact h
  · split
    · unfold closeEvery
      dsimp only [answerOk]
      exact (h.closeAll _ _).settling none
    · split
      · exact h
      · unfold closeOne
        split
        · exact (h.closeKey _ _ _).settling none
        · exact h

theorem actPlayCancel (h : QueueSafe s) (arguments : List Byte) : QueueSafe (actPlayCancel arguments s).state := by
  unfold Machine.actPlayCancel
  split
  · exact h
  · dsimp only
    split
    · exact (h.cancelNote _).settling none
    · exact h

theorem actAllOff (h : QueueSafe s) (arguments : List Byte) : QueueSafe (actAllOff arguments s).state :=
  (h.silenceKeys.settling none).same

theorem actQuietSet (h : QueueSafe s) (arguments : List Byte) : QueueSafe (actQuietSet arguments s).state := by
  unfold Machine.actQuietSet
  split
  · rename_i on _
    cases on with
    | true => exact (h.silenceKeys.settling none).same
    | false => exact h.same
  · exact h

theorem muteNote (h : QueueSafe s) (k : Key) : QueueSafe (muteNote k s) := by
  unfold Machine.muteNote
  split
  · rename_i phase
    split
    · exact (h.move phase rfl rfl).unsenseStrike k
    · exact h
  · rename_i phase
    exact h.move phase rfl rfl
  · exact h

theorem amendFlags (h : QueueSafe s) (k : Key) (setMask clearMask : Byte) :
    QueueSafe (amendFlags k setMask clearMask s) := by
  have changed : QueueSafe (s.setFlags k ((s.key k).flags.amend setMask clearMask)) := h.setKey rfl
  refine timeOutIfDue ?_ k
  split
  · exact changed.muteNote k
  · exact changed

theorem amendLevel (h : QueueSafe s) (k : Key) (level : Nat) : QueueSafe (amendLevel k level s) := by
  unfold Machine.amendLevel
  split
  · exact h.enterPending k _ _
  · exact h

theorem amendKey (h : QueueSafe s) (k : Key) (setMask clearMask : Byte) (level : AmendLevel) :
    QueueSafe (amendKey k setMask clearMask level s) := by
  have flagged := h.amendFlags k setMask clearMask
  cases level with
  | given level =>
    exact settling (f := fun u => Machine.amendLevel k level (Machine.amendFlags k setMask clearMask u))
      (flagged.amendLevel k level) _
  | keep => exact flagged.settling none
  | bad => exact flagged.settling none

theorem actKeyAmend (h : QueueSafe s) (arguments : List Byte) : QueueSafe (actKeyAmend arguments s).state := by
  unfold Machine.actKeyAmend
  dsimp only
  split
  · exact h
  · split
    · exact h
    · split
      · exact h
      · exact h.amendKey _ _ _ _

theorem actKeyRetire (h : QueueSafe s) (arguments : List Byte) : QueueSafe (actKeyRetire arguments s).state := by
  unfold Machine.actKeyRetire
  split
  · exact h
  · split
    · exact h
    · exact (h.retireKey _ _).settling none

theorem actKeyRestore (h : QueueSafe s) (arguments : List Byte) : QueueSafe (actKeyRestore arguments s).state := by
  unfold Machine.actKeyRestore
  split
  · exact h
  · rename_i k _
    split
    · rename_i retired
      refine h.setKey ?_
      cases phase : (s.key k).phase with
      | pending n v => rw [phase] at retired; cases retired
      | _ => rfl
    · exact h

/-! ### The roll, the apertures and the expression unit -/

theorem actRollStart (h : QueueSafe s) (arguments : List Byte) : QueueSafe (actRollStart arguments s).state := by
  unfold Machine.actRollStart
  split
  · exact h.same
  · exact h

theorem actRollStop (h : QueueSafe s) (arguments : List Byte) : QueueSafe (actRollStop arguments s).state := by
  unfold Machine.actRollStop stopRoll
  dsimp only [answerOk]
  split
  · exact h
  · exact h
  · exact h
  · exact h.stopFromLocked

theorem actApertureClose (h : QueueSafe s) (arguments : List Byte) :
    QueueSafe (actApertureClose arguments s).state := by
  have blind (c : Channel) : QueueSafe (blindRecord c s) := h
  have closed (c : Channel) (m : Option Mapping) : QueueSafe (sendClose c m (blindRecord c s)) :=
    (((blind c).sendControl _ _).sendNoteClose _ _).sendPedal _ _
  unfold Machine.actApertureClose
  split
  · unfold closeAperture
    dsimp only [answerOk]
    split
    · exact blind _
    · exact blind _
    · exact closed _ _
    · exact closed _ _
  · exact h

theorem actExprSet (h : QueueSafe s) (arguments : List Byte) : QueueSafe (actExprSet arguments s).state := by
  unfold Machine.actExprSet
  split
  · exact h
  · split
    · exact h
    · exact h.setHalf _ _

/-! ### The pedals (R167 to R176) -/

theorem applyDueEvents (h : QueueSafe s) (p : Pedal) : QueueSafe (applyDueEvents p s) := h.setPedal p _

theorem actPedalSet (h : QueueSafe s) (arguments : List Byte) : QueueSafe (actPedalSet arguments s).state := by
  unfold Machine.actPedalSet
  split
  · exact h
  · split
    · exact h
    · exact h.cuePedal _ _

theorem actPedalYield (h : QueueSafe s) (arguments : List Byte) : QueueSafe (actPedalYield arguments s).state := by
  unfold Machine.actPedalYield
  split
  · exact h
  · split
    · exact h
    · split
      · exact h
      · exact h.setPedal _ _

theorem actPedalClearFault (h : QueueSafe s) (arguments : List Byte) :
    QueueSafe (actPedalClearFault arguments s).state := by
  unfold Machine.actPedalClearFault
  split
  · exact h
  · split
    · exact h.setPedal _ _
    · exact h

/-! ### The source contexts and the cue queue -/

theorem actContextWrite (h : QueueSafe s) (arguments : List Byte) : QueueSafe (actContextWrite arguments s).state := by
  unfold Machine.actContextWrite
  split
  · rename_i source c _ _
    have written : QueueSafe (s.setContext source c) :=
      h.same (s.setContext_keys source c) (s.setContext_queue source c)
    unfold contextChange
    dsimp only [answerOk]
    split
    · exact (written.withdrawSource source).settling none
    · split
      · exact (written.silenceOutside source _ _).settling none
      · exact written
  · exact h

theorem actCuePush (h : QueueSafe s) (arguments : List Byte) : QueueSafe (actCuePush arguments s).state := by
  unfold Machine.actCuePush
  extract_lets pushed state
  dsimp only
  split
  · exact serviceCue h.same
  · exact h.same

/-! ### The settings, the voicing table and the image -/

theorem settingEffect (h : QueueSafe s) (x : Setting) (v : Nat) : QueueSafe (settingEffect x v s) := by
  have unsensed : QueueSafe (unsenseAll s) := by
    refine h.foldl_keys (fun k t kept => ?_) allKeys
    unfold unsenseIfSensed
    split
    · exact kept.unsenseStrike k
    · exact kept
  have timedOut : QueueSafe (timeOutDue s) := h.foldl_keys (fun k _ kept => kept.timeOutIfDue k) allKeys
  unfold Machine.settingEffect
  split
  · split
    · exact h.same
    · exact h
  · exact timedOut.settling none
  · split
    · exact unsensed.settling none
    · exact h
  · exact h.reexamineHead
  · exact h.serviceCue
  · exact h.serviceCue
  · split
    · exact h.same
    · exact h

theorem actConfigWrite (h : QueueSafe s) (pin : Bool) (arguments : List Byte) :
    QueueSafe (actConfigWrite pin arguments s).state := by
  unfold Machine.actConfigWrite
  dsimp only
  split
  · exact h
  · rename_i x _
    split
    · exact h
    · rcases writeSetting_spec x (arg32 arguments 1) { s with servicePin := pin } with ⟨r, -, e⟩ | ⟨-, -, -, -, e⟩ <;>
        rw [e]
      · exact h
      · exact settingEffect h.same x _

theorem actVoiceWrite (h : QueueSafe s) (arguments : List Byte) : QueueSafe (actVoiceWrite arguments s).state := by
  unfold Machine.actVoiceWrite
  split
  · exact h
  · split
    · exact h
    · split
      · exact h.same
      · exact h

theorem failCommit (h : QueueSafe s) (wordReached : Nat) : QueueSafe (failCommit wordReached s) := raise h.same _ _

theorem actVoiceCommit (h : QueueSafe s) (pin acked : Bool) (arguments : List Byte) :
    QueueSafe (actVoiceCommit pin acked arguments s).state := by
  unfold Machine.actVoiceCommit
  dsimp only
  split
  · exact h
  · split
    · exact h
    · unfold beginCommit
      dsimp only [answerOk]
      split
      · exact h.same
      · exact failCommit h.same 0

theorem completePage (h : QueueSafe s) (acked : Bool) : QueueSafe (completePage acked s) := by
  unfold Machine.completePage
  split
  · exact h
  · unfold nextPage
    split
    · exact raise h.same _ _
    · split
      · exact h.same
      · exact failCommit h.same _

theorem timeOutCommit (h : QueueSafe s) : QueueSafe (timeOutCommit s) := by
  unfold Machine.timeOutCommit
  split
  · exact h
  · split
    · exact h.failCommit _
    · exact h

/-! ### The port (R193 to R199) -/

theorem readRise (h : QueueSafe s) (clocked : Nat) : QueueSafe (readRise clocked s) := by
  unfold Machine.readRise
  split
  · exact h
  · split
    · exact h
    · exact h.same

theorem readTransaction (h : QueueSafe s) (phase : ReadPhase) : QueueSafe (readTransaction phase s) := by
  cases phase with
  | fall => exact h.same
  | rise clocked => exact h.readRise clocked
  | whole clocked => exact readRise h.same clocked

theorem writeTransaction (h : QueueSafe s) (bytes : List Byte) : QueueSafe (writeTransaction bytes s) := by
  unfold Machine.writeTransaction
  split
  · exact h
  · split
    · exact h
    · split
      · exact h
      · unfold offerFrame
        split <;> exact h

theorem serveBadRequest (h : QueueSafe s) : QueueSafe (serveBadRequest s) := by
  unfold Machine.serveBadRequest
  split
  · exact h
  · split <;> exact h

/-- A request that reads keeps the queue: it answers from the state as it is. -/
theorem serveQuery (h : QueueSafe s) {act : List Byte → State → Answer} (code : Nat) (whileLoading : Bool)
    (reads : ∀ arguments u, ∃ pin, (act arguments u).state = { u with servicePin := pin }) :
    QueueSafe (Machine.serveRequest code whileLoading act s) :=
  h.serveRequest (fun arguments u kept => by
    obtain ⟨pin, same⟩ := reads arguments u
    rw [same]
    exact kept) code whileLoading

end QueueSafe

/-! ### The step -/

/-- Every command keeps the strike queue to the keys in PENDING. -/
theorem QueueSafe.exec {s s' : State} (h : QueueSafe s) (c : Instr) (run : exec c s = .next s') : QueueSafe s' := by
  have came := h.arrive
  have query {code : Nat} {whileLoading : Bool} {act : List Byte → State → Answer} {t : Time} :=
    (came t).serveQuery (act := act) code whileLoading
  cases c <;> obtain rfl := Host.Outcome.next.inj run
  case fullReset lines => exact .fullResetState lines s
  case imageLoadComplete t acked framed => exact (came t).completeLoad acked framed
  case segmentArrival t lane bytes => exact (came t).takeBurstOn lane bytes
  case lineTimerExpiry t => exact (came t).expireLineTimer
  case strikeQueueHeadTimer t => exact (came t).expireHeadTimer
  case strikeEndTimerExpiry t number => exact (came t).onKey (came t).expireStrike number
  case gapEnd t number => exact (came t).onKey (came t).endGap number
  case releaseTime t number => exact (came t).onKey (came t).reachRelease number
  case expressionStep t => exact (came t).stepExpression
  case heatStep t => exact (came t).stepHeat
  case pedalStep t => exact (came t).stepServo
  case pedalFault t p => exact (came t).settleTimeout p
  case pedalEventDue t p => exact (came t).applyDueEvents p
  case hubReport t b => exact (came t).completeReport b
  case hubBurstEnd t => exact (came t).endBurst
  case hubByteReceived t b => exact (came t).receiveByte b
  case cueEntryDue t => exact (came t).serviceCue
  case spiWriteTransaction t bytes => exact (came t).writeTransaction bytes
  case spiReadTransaction t phase => exact (came t).readTransaction phase
  case badRequest t => exact (came t).serveBadRequest
  case commitPageWritten t acked => exact (came t).completePage acked
  case commitAckTimeout t => exact (came t).timeOutCommit
  case status t pin => exact query fun _ _ => ⟨pin, rfl⟩
  case timeRead t => exact query fun _ u => ⟨u.servicePin, rfl⟩
  case configRead t => exact query fun _ u => ⟨u.servicePin, by unfold actConfigRead; split <;> rfl⟩
  case rollQuery t => exact query fun _ u => ⟨u.servicePin, rfl⟩
  case apertureQuery t => exact query fun _ u => ⟨u.servicePin, by unfold actApertureQuery; split <;> rfl⟩
  case exprQuery t => exact query fun _ u => ⟨u.servicePin, by unfold actExprQuery; split <;> rfl⟩
  case keyQuery t => exact query fun _ u => ⟨u.servicePin, by unfold actKeyQuery; split <;> rfl⟩
  case pedalQuery t => exact query fun _ u => ⟨u.servicePin, by unfold actPedalQuery; split <;> rfl⟩
  case contextRead t => exact query fun _ u => ⟨u.servicePin, by unfold actContextRead; split <;> rfl⟩
  case cueQuery t => exact query fun _ u => ⟨u.servicePin, rfl⟩
  case voiceRead t => exact query fun _ u => ⟨u.servicePin, by unfold actVoiceRead; split <;> rfl⟩
  case configWrite t pin => exact (came t).serveRequest (fun x _ kept => kept.actConfigWrite pin x) _ _
  case performanceReset t => exact (came t).serveRequest (fun _ u _ => performanceResetState u) _ _
  case rollStart t => exact (came t).serveRequest (fun x _ kept => kept.actRollStart x) _ _
  case rollStop t => exact (came t).serveRequest (fun x _ kept => kept.actRollStop x) _ _
  case apertureClose t => exact (came t).serveRequest (fun x _ kept => kept.actApertureClose x) _ _
  case exprSet t => exact (came t).serveRequest (fun x _ kept => kept.actExprSet x) _ _
  case playOpen t => exact (came t).serveRequest (fun x _ kept => kept.actPlayOpen x) _ _
  case playClose t => exact (came t).serveRequest (fun x _ kept => kept.actPlayClose x) _ _
  case playCancel t => exact (came t).serveRequest (fun x _ kept => kept.actPlayCancel x) _ _
  case allOff t => exact (came t).serveRequest (fun x _ kept => kept.actAllOff x) _ _
  case quietSet t => exact (came t).serveRequest (fun x _ kept => kept.actQuietSet x) _ _
  case keyAmend t => exact (came t).serveRequest (fun x _ kept => kept.actKeyAmend x) _ _
  case keyRetire t => exact (came t).serveRequest (fun x _ kept => kept.actKeyRetire x) _ _
  case keyRestore t => exact (came t).serveRequest (fun x _ kept => kept.actKeyRestore x) _ _
  case pedalSet t => exact (came t).serveRequest (fun x _ kept => kept.actPedalSet x) _ _
  case pedalYield t => exact (came t).serveRequest (fun x _ kept => kept.actPedalYield x) _ _
  case pedalClearFault t => exact (came t).serveRequest (fun x _ kept => kept.actPedalClearFault x) _ _
  case contextWrite t => exact (came t).serveRequest (fun x _ kept => kept.actContextWrite x) _ _
  case cuePush t => exact (came t).serveRequest (fun x _ kept => kept.actCuePush x) _ _
  case cueFlush t => exact (came t).serveRequest (fun _ _ kept => kept.same) _ _
  case voiceWrite t => exact (came t).serveRequest (fun x _ kept => kept.actVoiceWrite x) _ _
  case voiceCommit t pin acked => exact (came t).serveRequest (fun x _ kept => kept.actVoiceCommit pin acked x) _ _

/-- Settles O12: by the commands, each taken from a state that differs in the commands waiting alone. -/
theorem queueHoldsPendingKeys : Obligations.QueueHoldsPendingKeys := by
  intro s s' h run
  unfold step at run
  split at run
  · obtain rfl := Host.Outcome.next.inj run
    obtain ⟨port, served⟩ := idle_frame s
    rw [served]
    exact h.same
  · rename_i c rest _
    have taken : QueueSafe { s with pending := rest } := h
    exact taken.exec c run

end Sys2Proof.Machine
end

section
/-! The examination of a head whose planned launch has come (06_strike_computation R118, R119, R124, R130, R141). -/

namespace Sys2Proof.Machine

/-! ### The launch of a note (R89, R124, R126) -/

section
variable {s : State} {k : Key} {n : Note} {v : StrikeValues}

/-- What a launch makes of the record of a PENDING key. -/
theorem launchedRecord_of_pending {r : KeyRecord} (mode : LaunchMode) (pending : r.phase = .pending n v) :
    launchedRecord s mode r = { r with
      lastLateness := (launchFields s v mode).lateness
      phase := .strike n v (launchFields s v mode) (launchSensed s mode)
        (if launchSensed s mode then (launchFields s v mode).limit else unsensedEnd v (launchFields s v mode))
        none } := by
  rw [launchedRecord, pending]

/-- A note that is not launched NORMAL is not sensed. -/
theorem launchedRecord_of_silent {r : KeyRecord} {mode : LaunchMode} (pending : r.phase = .pending n v)
    (silent : mode ≠ .normal) : launchedRecord s mode r = { r with
      lastLateness := (launchFields s v mode).lateness
      phase := .strike n v (launchFields s v mode) false (timePlus s.clock (100 * (v.flight : Int))) none } := by
  have unsensed : launchSensed s mode = false := by rw [launchSensed, decide_eq_false silent, Bool.false_and]
  rw [launchedRecord_of_pending mode pending, unsensed]
  rfl

/-- A strike that is not launched NORMAL drives nothing (R80). -/
theorem driveLevel_of_silent_launch {l : Launch} {sensed : Bool} {e : Time} {m : Option Note}
    (strike : (s.key k).phase = .strike n v l sensed e m) (silent : l.mode ≠ .normal) : driveLevel s k = 0 := by
  rw [driveLevel, recordDrive, strike]
  dsimp only
  rw [noteDrives, decide_eq_false silent]
  rfl

end

/-! ### How the head is launched (R119, R130) -/

section
variable {s : State} {k : Key} {n : Note} {v : StrikeValues}

theorem launchDecision_of_hot (hot : s.heat.max ≤ s.heatOf k) : launchDecision s k = some .cool := if_pos hot

variable (cool : s.heatOf k < s.heat.max)
include cool

theorem launchDecision_of_silenced (silenced : (s.key k).flags.mute = true ∨ s.quiet = true) :
    launchDecision s k = some .muted := by
  rw [launchDecision, if_neg (Nat.not_le.mpr cool), if_pos ((Bool.or_eq_true _ _).mpr silenced)]

variable (unmuted : (s.key k).flags.mute = false) (loud : s.quiet = false) (pending : (s.key k).phase = .pending n v)
include unmuted loud pending

theorem launchDecision_of_loud : launchDecision s k = if poolGrants s v.duty then some .normal else none := by
  rw [launchDecision, if_neg (Nat.not_le.mpr cool), unmuted, loud, pendingDuty, pending]
  rfl

/-- A duty that fits the free units is granted. -/
theorem launchDecision_of_granted (fits : claimSum s + v.duty ≤ s.setting .poolCapacity) :
    launchDecision s k = some .normal := by
  have granted : poolGrants s v.duty = true := decide_eq_true (by unfold freeUnits; omega)
  rw [launchDecision_of_loud cool unmuted loud pending, if_pos granted]

/-- A duty above the free units of a pool that is not overdrawn is refused. -/
theorem launchDecision_of_refused (exceeds : s.setting .poolCapacity < claimSum s + v.duty)
    (bounded : claimSum s ≤ s.setting .poolCapacity) : launchDecision s k = none := by
  have refused : ¬ poolGrants s v.duty = true := by
    unfold poolGrants freeUnits
    rw [decide_eq_true_eq]
    omega
  rw [launchDecision_of_loud cool unmuted loud pending, if_neg refused]

end

/-! ### The examination (R118 to R120) -/

theorem withoutKey_cons_self {k : Key} {planned : Time} {rest : List QueueEntry} (others : ∀ e ∈ rest, e.key ≠ k) :
    withoutKey k ({ key := k, planned := planned } :: rest) = rest := by
  have kept : withoutKey k rest = rest :=
    List.filter_eq_self.mpr fun e listed => decide_eq_true (others e listed)
  rw [withoutKey, List.filter_cons_of_neg (by simp)]
  exact kept

/-- With no head that has come the head is TIMED, or IDLE on an empty queue. -/
theorem examineLoop_of_ahead {s : State} (m : Nat)
    (ahead : ∀ e, s.queue.entries.head? = some e → ¬ reached s.clock e.planned) :
    examineLoop (m + 1) s = s.setStatus (if s.queue.entries = [] then .idle else .timed) := by
  unfold examineLoop
  cases entries : s.queue.entries with
  | nil => rfl
  | cons e rest =>
    rw [entries] at ahead
    exact if_neg (ahead e rfl)

/-- A head that has come is launched as decided and the next is examined, or waits for the pool. -/
theorem examineLoop_of_come {s : State} {k : Key} {planned : Time} {rest : List QueueEntry} (m : Nat)
    (queued : s.queue.entries = { key := k, planned := planned } :: rest) (come : reached s.clock planned = true) :
    examineLoop (m + 1) s = match launchDecision s k with
      | some mode => examineLoop m (launchKey mode k s)
      | none => s.setStatus .waiting := by
  rw [examineLoop, queued]
  exact if_pos come

/-! ### STRIKE_QUEUE_HEAD_TIMER (R118) -/

section
variable {s a : State} {t planned : Time} {k : Key} {n : Note} {v : StrikeValues} {rest : List QueueEntry}
  (arrived : s.arrive t = a) (queued : a.queue.entries = { key := k, planned := planned } :: rest)
  (timed : a.queue.status = .timed) (come : reached a.clock planned = true)
include arrived queued timed come

theorem exec_headTimer : exec (.strikeQueueHeadTimer t) s = .next (examineLoop (rest.length + 2) a) := by
  have examined : expireHeadTimer a = examineHead a := by
    rw [expireHeadTimer, queued]
    exact if_pos ⟨timed, come⟩
  show Host.Outcome.next (expireHeadTimer (s.arrive t)) = _
  rw [arrived, examined, examineHead, queued]
  rfl

/-- The head is launched and leaves the queue, and the next, not come, is TIMED. -/
theorem exec_headTimer_of_launched {mode : LaunchMode} (decided : launchDecision a k = some mode)
    (others : ∀ e ∈ rest, e.key ≠ k) (ahead : ∀ e, rest.head? = some e → ¬ reached a.clock e.planned) :
    exec (.strikeQueueHeadTimer t) s = .next { a with
      keys := a.keys.set k (launchedRecord a mode (a.key k))
      queue := { entries := rest, status := if rest = [] then .idle else .timed } } := by
  have left : withoutKey k a.queue.entries = rest := by rw [queued]; exact withoutKey_cons_self others
  have launched : launchKey mode k a = (a.setKey k (launchedRecord a mode (a.key k))).setEntries rest := by
    rw [launchKey, left]
  rw [exec_headTimer arrived queued timed come, examineLoop_of_come _ queued come, decided]
  dsimp only
  rw [launched, examineLoop_of_ahead _ ahead]
  rfl

theorem exec_headTimer_of_refused (decided : launchDecision a k = none) :
    exec (.strikeQueueHeadTimer t) s = .next { a with
      queue := { entries := { key := k, planned := planned } :: rest, status := .waiting } } := by
  rw [exec_headTimer arrived queued timed come, examineLoop_of_come _ queued come, decided, ← queued]
  rfl

end

/-- A single head launched COOL or MUTED: it neither drives nor is sensed, and the queue is empty. -/
theorem exec_headTimer_of_silent {s a : State} {t planned : Time} {k : Key} {n : Note} {v : StrikeValues}
    {mode : LaunchMode} (arrived : s.arrive t = a) (queued : a.queue.entries = [{ key := k, planned := planned }])
    (timed : a.queue.status = .timed) (come : reached a.clock planned = true)
    (decided : launchDecision a k = some mode) (pending : (a.key k).phase = .pending n v) (silent : mode ≠ .normal) :
    ∃ s', exec (.strikeQueueHeadTimer t) s = .next s' ∧
      (s'.key k).phase =
        .strike n v (launchFields a v mode) false (timePlus a.clock (100 * (v.flight : Int))) none ∧
      (s'.key k).lastLateness = (launchFields a v mode).lateness ∧ driveLevel s' k = 0 ∧
      s' = { a with keys := a.keys.set k (s'.key k), queue := { entries := [], status := .idle } } := by
  obtain ⟨r, record, phase, late⟩ : ∃ r, launchedRecord a mode (a.key k) = r ∧
      r.phase = .strike n v (launchFields a v mode) false (timePlus a.clock (100 * (v.flight : Int))) none ∧
      r.lastLateness = (launchFields a v mode).lateness := ⟨_, launchedRecord_of_silent pending silent, rfl, rfl⟩
  have run := exec_headTimer_of_launched arrived queued timed come decided nofun nofun
  rw [record, if_pos rfl] at run
  have own : ({ a with keys := a.keys.set k r, queue := { entries := [], status := .idle } } : State).key k = r :=
    a.key_setKey_same k r
  exact ⟨_, run, by rw [own, phase], by rw [own, late],
    driveLevel_of_silent_launch (by rw [own, phase]) silent, by rw [own]⟩

/-- Settles O34: the pool grants the head's duty, and the examination goes no further than the next entry. -/
theorem headLaunchedNormal : Obligations.HeadLaunchedNormal := by
  intro s a t k n v planned rest arrived queued timed pending others ahead come cool unmuted loud fits
  have decided := launchDecision_of_granted cool unmuted loud pending fits
  rw [exec_headTimer_of_launched arrived queued timed come decided others ahead,
    launchedRecord_of_pending .normal pending]
  simp [launchFields, launchSensed, unsensedEnd]

/-- Settles O35: the three decisions of R119 that do not launch a single head NORMAL. -/
theorem headLaunchedSilentOrWaits : Obligations.HeadLaunchedSilentOrWaits := by
  intro s a t k n v planned arrived queued timed pending come
  refine ⟨fun hot => ?_, fun cool silenced => ?_, fun cool unmuted loud exceeds bounded => ?_⟩
  · obtain ⟨s', run, phase, late, drive, rest⟩ :=
      exec_headTimer_of_silent arrived queued timed come (launchDecision_of_hot hot) pending nofun
    exact ⟨s', _, run, phase, rfl, rfl, late, drive, rest⟩
  · obtain ⟨s', run, phase, -, drive, rest⟩ :=
      exec_headTimer_of_silent arrived queued timed come (launchDecision_of_silenced cool silenced) pending nofun
    exact ⟨s', _, run, phase, rfl, rfl, drive, rest⟩
  · exact exec_headTimer_of_refused arrived queued timed come
      (launchDecision_of_refused cool unmuted loud pending exceeds bounded)

end Sys2Proof.Machine
end

section
/-! The strike values of a note (06_strike_computation R111 to R115). -/

namespace Sys2Proof.Machine

/-! ### The velocity code and its interval (R111, R112) -/

section
variable {velMin velMax level c : Nat}

/-- The levels spread over the range of the settings. -/
theorem velocityCode_bounds (ordered : velMin ≤ velMax) (bounded : level ≤ 1023) :
    velMin ≤ velocityCode velMin velMax level ∧ velocityCode velMin velMax level ≤ velMax := by
  have share : (velMax - velMin) * level ≤ (velMax - velMin) * 1023 := Nat.mul_le_mul_left _ bounded
  unfold velocityCode
  omega

theorem breakpointVelocity_strictMono : StrictMono breakpointVelocity := by decide

/-- A velocity code from the first breakpoint to the last lies in the interval of its index. -/
theorem intervalIndex_spec (low : 20 ≤ c) :
    breakpointVelocity (intervalIndex c).castSucc ≤ c ∧
      (c < breakpointVelocity (intervalIndex c).succ ∨ intervalIndex c = Fin.last 6) := by
  unfold intervalIndex
  split_ifs with at300 at220 at160 at110 at70 at40
  · exact ⟨at300, .inr rfl⟩
  · exact ⟨at220, .inl (Nat.not_le.mp at300)⟩
  · exact ⟨at160, .inl (Nat.not_le.mp at220)⟩
  · exact ⟨at110, .inl (Nat.not_le.mp at160)⟩
  · exact ⟨at70, .inl (Nat.not_le.mp at110)⟩
  · exact ⟨at40, .inl (Nat.not_le.mp at70)⟩
  · exact ⟨low, .inl (Nat.not_le.mp at40)⟩

/-- No later interval begins at or below the code. -/
theorem le_intervalIndex (low : 20 ≤ c) {j : Fin 7} (begins : breakpointVelocity j.castSucc ≤ c) :
    j ≤ intervalIndex c := by
  obtain ⟨-, below | last⟩ := intervalIndex_spec low
  · refine Fin.not_lt.mp fun later => ?_
    have ends : breakpointVelocity (intervalIndex c).succ ≤ breakpointVelocity j.castSucc :=
      breakpointVelocity_strictMono.monotone (Fin.succ_le_castSucc_iff.mpr later)
    omega
  · rw [last]
    exact Fin.le_last j

theorem le_intervalEnd (low : 20 ≤ c) (high : c ≤ 450) : c ≤ breakpointVelocity (intervalIndex c).succ := by
  obtain ⟨-, below | last⟩ := intervalIndex_spec low
  · exact below.le
  · rw [last]
    exact high

/-- The fraction of a code that lies before the end of its interval. -/
theorem fractionOf_le {i : Fin 7} (inside : c ≤ breakpointVelocity i.succ) : fractionOf c i ≤ 256 :=
  Nat.div_le_of_le_mul (Nat.mul_le_mul_right 256 (Nat.sub_le_sub_right inside _))

end

/-! ### The flight and the planned launch (R114, R115) -/

/-- A falling interpolation lies between its two breakpoints. -/
theorem interpolate_bounds {curve : Vector Nat 8} {i : Fin 7} {f : Nat}
    (falling : curve[i.succ] ≤ curve[i.castSucc]) (fraction : f ≤ 256) :
    ((interpolate curve i f).toNat : Int) = interpolate curve i f ∧
      curve[i.succ] ≤ (interpolate curve i f).toNat ∧ (interpolate curve i f).toNat ≤ curve[i.castSucc] := by
  have drop : 0 ≤ (curve[i.castSucc] : Int) - curve[i.succ] := Int.sub_nonneg_of_le (Int.ofNat_le.mpr falling)
  have least : 0 ≤ ((curve[i.castSucc] : Int) - curve[i.succ]) * f := Int.mul_nonneg drop (Int.natCast_nonneg f)
  have most : ((curve[i.castSucc] : Int) - curve[i.succ]) * f ≤ (curve[i.castSucc] - curve[i.succ]) * 256 :=
    Int.mul_le_mul_of_nonneg_left (Int.ofNat_le.mpr fraction) drop
  have rise : ((curve[i.succ] : Int) - curve[i.castSucc]) * f = -((curve[i.castSucc] - curve[i.succ]) * f) := by
    rw [← Int.neg_mul, Int.neg_sub]
  unfold interpolate
  omega

/-- The flight breakpoints of a valid record fall and lie within 4000 (R152). -/
theorem VoicingRecord.flights_of_valid {r : VoicingRecord} (valid : r.valid = true) (i : Fin 7) :
    r.flights[i.succ] ≤ r.flights[i.castSucc] ∧ r.flights[i.castSucc] ≤ 4000 := by
  simp only [VoicingRecord.valid, curveOrdered, Bool.and_eq_true, List.all_eq_true, decide_eq_true_eq] at valid
  obtain ⟨⟨⟨⟨⟨⟨-, range⟩, -⟩, -⟩, -⟩, -⟩, falling⟩ := valid
  exact ⟨falling i (List.mem_finRange i), range _ (Vector.mem_toList_iff.mpr (Vector.getElem_mem _))⟩

theorem timePlus_neg (t : Time) (us : Nat) : timePlus t (-(us : Int)) = t - BitVec.ofNat 32 us := by
  rw [timePlus, BitVec.ofInt_neg, BitVec.ofInt_natCast, BitVec.sub_eq_add_neg]

/-! ### The duty (R113) -/

theorem clampedDuty_spec (x : Int) : ((clampInt 1 1023 x).toNat : Int) = max 1 (min 1023 x) ∧
    1 ≤ (clampInt 1 1023 x).toNat ∧ (clampInt 1 1023 x).toNat ≤ 1023 := by
  unfold clampInt
  omega

/-! ### The strike values -/

/-- Settles O32: each value is its formula; the ranges are those of the code, the fraction, the duty and the flight. -/
theorem strikeValuesInRange : Obligations.StrikeValuesInRange := by
  rintro velMin velMax level shift r sound v valid low ordered high bounded - rfl
  obtain ⟨aboveMin, codeHigh⟩ := velocityCode_bounds ordered bounded
  have codeLow := low.trans aboveMin
  obtain ⟨begins, -⟩ := intervalIndex_spec codeLow
  have fraction := fractionOf_le (le_intervalEnd codeLow (codeHigh.trans high))
  obtain ⟨falling, range⟩ := VoicingRecord.flights_of_valid valid (intervalIndex (velocityCode velMin velMax level))
  obtain ⟨flight, flightLow, flightHigh⟩ := interpolate_bounds falling fraction
  obtain ⟨duty, dutyLow, dutyHigh⟩ := clampedDuty_spec (interpolate r.duties
    (intervalIndex (velocityCode velMin velMax level)) (fractionOf (velocityCode velMin velMax level)
      (intervalIndex (velocityCode velMin velMax level))) + trimOf r.softTrim shift)
  exact ⟨rfl, rfl, begins, fun j => le_intervalIndex codeLow, rfl, duty, flight, fraction, dutyLow, dutyHigh,
    flightLow, flightHigh, flightHigh.trans range, timePlus_neg sound (100 * _), rfl⟩

end Sys2Proof.Machine
end

section
/-! HEAT_STEP: the figures it advances and the holds it cuts (07_drive_power R137 to R142). -/

namespace Sys2Proof.Machine

/-! ### One key's part of a heat step (R138) -/

/-- What a heat step may change: the keys, their heat figures and the notices. -/
def HeatFrame (s s' : State) : Prop :=
  ∃ keys figures port, s' = { s with keys := keys, heat := { s.heat with figures := figures }, port := port }

namespace HeatFrame

variable {s s' s'' : State}

theorem refl (s : State) : HeatFrame s s := ⟨_, _, _, rfl⟩

theorem trans (h : HeatFrame s s') (h' : HeatFrame s' s'') : HeatFrame s s'' := by
  obtain ⟨_, _, _, rfl⟩ := h
  obtain ⟨keys, figures, port, e⟩ := h'
  exact ⟨keys, figures, port, e⟩

theorem setHeat (k : Key) (figure : Nat) (s : State) : HeatFrame s (s.setHeat k figure) := ⟨_, _, _, rfl⟩

theorem setPhase (k : Key) (p : KeyPhase) (s : State) : HeatFrame s (s.setPhase k p) := ⟨_, _, _, rfl⟩

theorem raise (kind : NoticeKind) (fields : List Byte) (s : State) : HeatFrame s (s.raise kind fields) := by
  unfold State.raise
  split <;> exact ⟨_, _, _, rfl⟩

theorem guardHold (k : Key) (s : State) : HeatFrame s (guardHold k s) := by
  unfold Machine.guardHold
  split
  · split
    · exact (setPhase k _ s).trans (raise _ _ _)
    · exact setPhase k _ s
  · exact refl s

theorem heatKey (k : Key) (s : State) : HeatFrame s (heatKey k s) := (setHeat k _ s).trans (guardHold k _)

end HeatFrame

/-- A key's figure after a heat step that finds the key as it is. -/
def figureAfter (s : State) (k : Key) : Nat := heatedFigure (s.heatOf k) (driveLevel s k)

/-- What a heat step makes of a key's record: a hold is cut at HEAT_MAX, and any other keeps its note with a duty
within the nominal one (R139, R140). -/
structure HoldGuarded (s : State) (k : Key) (r : KeyRecord) : Prop where
  cut : ∀ n v l d start, (s.key k).phase = .hold n v l d start → s.heat.max ≤ figureAfter s k →
    r.phase = .damp (gapEndNow s k)
  kept : ∀ n v l d start, (s.key k).phase = .hold n v l d start → figureAfter s k < s.heat.max →
    ∃ d', r.phase = .hold n v l d' start ∧
      d' ≤ if s.heat.warn ≤ figureAfter s k then (s.voice k).holdDuty / 2 else (s.voice k).holdDuty
  other : isHold (s.key k).phase = false → r = s.key k

theorem holdDutyFor_le_nominal (s : State) (k : Key) (l : Launch) (present : Nat) :
    holdDutyFor s k l present ≤ nominalHold s k := by
  unfold holdDutyFor
  split
  · exact (limitedClaim_le s present _).1
  · exact le_rfl

section
variable (k j : Key) (s : State)

theorem guardHold_heat : (guardHold k s).heat = s.heat := by
  unfold guardHold
  split
  · split
    · exact State.raise_heat _ _ _
    · rfl
  · rfl

theorem guardHold_key_of_ne (other : j ≠ k) : (guardHold k s).key j = s.key j := by
  unfold guardHold
  split
  · split
    · exact (State.raise_key _ _ _ j).trans (s.key_setPhase_ne k j _ (Ne.symm other))
    · exact s.key_setPhase_ne k j _ (Ne.symm other)
  · rfl

theorem heatKey_heatOf : (heatKey k s).heatOf j = if k = j then figureAfter s k else s.heatOf j := by
  rw [← State.heatOf_setHeat, State.heatOf, heatKey, guardHold_heat]
  rfl

theorem heatKey_key_of_ne (other : j ≠ k) : (heatKey k s).key j = s.key j := guardHold_key_of_ne k j _ other

theorem heatKey_guards : HoldGuarded s k ((heatKey k s).key k) := by
  have figure : (s.setHeat k (figureAfter s k)).heatOf k = figureAfter s k := by
    rw [State.heatOf_setHeat, if_pos rfl]
  have own : (s.setHeat k (figureAfter s k)).key k = s.key k := rfl
  show HoldGuarded s k ((guardHold k (s.setHeat k (figureAfter s k))).key k)
  refine ⟨fun n v l d start hold hot => ?cut, fun n v l d start hold cool => ?kept, fun other => ?other⟩ <;>
    rw [guardHold]
  case cut =>
    rw [own, hold]
    dsimp only
    rw [if_pos (by rw [figure]; exact hot), raiseThermal, State.raise_key, State.key_setPhase_same]
    rfl
  case kept =>
    rw [own, hold]
    dsimp only
    rw [if_neg (by rw [figure]; exact Nat.not_le.mpr cool), State.key_setPhase_same]
    refine ⟨_, rfl, (holdDutyFor_le_nominal _ k l _).trans ?_⟩
    rw [nominalHold, figure]
    exact le_rfl
  case other =>
    split
    · rename_i hold
      rw [own] at hold
      rw [hold] at other
      cases other
    · rfl

end

/-! ### Every key's part (R138) -/

/-- A key is processed with what the step found, whatever came before it on other keys. -/
theorem HoldGuarded.of_frame {s t : State} {k : Key} {r : KeyRecord} (h : HoldGuarded t k r) (frame : HeatFrame s t)
    (own : t.key k = s.key k) (figure : figureAfter t k = figureAfter s k) : HoldGuarded s k r := by
  obtain ⟨cut, kept, other⟩ := h
  obtain ⟨_, _, _, rfl⟩ := frame
  rw [own, figure] at cut kept
  rw [own] at other
  exact ⟨cut, kept, other⟩

theorem figureAfter_of_frame {s t : State} {k : Key} (frame : HeatFrame s t) (own : t.key k = s.key k)
    (figure : t.heatOf k = s.heatOf k) : figureAfter t k = figureAfter s k := by
  rw [figureAfter, figure, driveLevel, own]
  obtain ⟨_, _, _, rfl⟩ := frame
  rfl

/-- A heat step over some of the keys. -/
def heatSome (keys : List Key) (s : State) : State := keys.foldl (fun t k => heatKey k t) s

theorem heatKeys_eq (s : State) : heatKeys s = heatSome allKeys s := rfl

theorem heatSome_cons (k : Key) (keys : List Key) (s : State) : heatSome (k :: keys) s = heatSome keys (heatKey k s) :=
  rfl

theorem HeatFrame.heatSome (keys : List Key) (s : State) : HeatFrame s (heatSome keys s) :=
  List.foldlRecOn keys _ (refl s) fun _ kept k _ => kept.trans (heatKey k _)

/-- A step over some keys, each once, advances and guards those as it found them and leaves the others. -/
theorem heatSome_spec (s : State) (k : Key) {keys : List Key} (once : keys.Nodup) :
    (k ∈ keys → (heatSome keys s).heatOf k = figureAfter s k ∧ HoldGuarded s k ((heatSome keys s).key k)) ∧
      (k ∉ keys → (heatSome keys s).heatOf k = s.heatOf k ∧ (heatSome keys s).key k = s.key k) := by
  induction keys generalizing s with
  | nil => exact ⟨nofun, fun _ => ⟨rfl, rfl⟩⟩
  | cons j keys ih =>
    obtain ⟨absent, once⟩ := List.nodup_cons.mp once
    obtain ⟨processed, left⟩ := ih (heatKey j s) once
    rw [heatSome_cons]
    by_cases own : k = j
    · subst own
      obtain ⟨figure, record⟩ := left absent
      rw [figure, record, heatKey_heatOf, if_pos rfl]
      exact ⟨fun _ => ⟨rfl, heatKey_guards k s⟩, fun out => absurd List.mem_cons_self out⟩
    · have record := heatKey_key_of_ne j k s own
      have figure : (heatKey j s).heatOf k = s.heatOf k := by rw [heatKey_heatOf, if_neg (Ne.symm own)]
      have frame := HeatFrame.heatKey j s
      have advanced := figureAfter_of_frame frame record figure
      refine ⟨fun listed => ?_, fun out => ?_⟩
      · obtain ⟨figure', guarded⟩ := processed ((List.mem_cons.mp listed).resolve_left own)
        exact ⟨figure'.trans advanced, guarded.of_frame frame record advanced⟩
      · obtain ⟨figure', record'⟩ := left fun listed => out (List.mem_cons_of_mem j listed)
        exact ⟨figure'.trans figure, record'.trans record⟩

/-- A heat step advances every figure and guards every hold, each key as the step finds it. -/
theorem heatKeys_spec (s : State) (k : Key) :
    (heatKeys s).heatOf k = figureAfter s k ∧ HoldGuarded s k ((heatKeys s).key k) := by
  rw [heatKeys_eq]
  exact (heatSome_spec s k (List.nodup_finRange 88)).1 (List.mem_finRange k)

theorem HoldGuarded.still {s : State} {k : Key} {r : KeyRecord} (h : HoldGuarded s k r)
    (waits : isPending (s.key k).phase = false) : isPending r.phase = false := by
  obtain ⟨cut, kept, other⟩ := h
  cases phase : (s.key k).phase with
  | hold n v l d start =>
    rcases Nat.lt_or_ge (figureAfter s k) s.heat.max with cool | hot
    · obtain ⟨d', held, -⟩ := kept n v l d start phase cool
      rw [held]
      rfl
    · rw [cut n v l d start phase hot]
      rfl
  | _ =>
    rw [other (by rw [phase]; rfl)]
    exact waits

/-! ### HEAT_STEP (R137, R142) -/

/-- What the examination of a WAITING head may add to an event: launches of keys in PENDING. -/
theorem reexamineHead_frame (s : State) : ∃ keys queue, reexamineHead s = { s with keys := keys, queue := queue } ∧
    ∀ k : Key, isPending (s.key k).phase = false → keys[k] = s.key k := by
  rcases reexamineHead_spec s with e | e <;> rw [e]
  · exact ⟨s.keys, s.queue, rfl, fun _ _ => rfl⟩
  · obtain ⟨keys, queue, e, -, launched⟩ := examineHead_spec s
    refine ⟨keys, queue, e, fun k still => (launched k).resolve_right fun ⟨waits, _⟩ => ?_⟩
    rw [still] at waits
    cases waits

/-- The work of a step from the loaded thresholds: every figure advanced, every hold guarded, and nothing else but
launches and notices. -/
theorem heatWork_spec (s : State) : ∃ keys queue figures port,
    heatWork s = { s with
      keys := keys
      queue := queue
      heat := { s.heat with figures := figures, warn := s.setting .heatWarn, max := s.setting .heatMax }
      port := port } ∧
    ∀ k : Key, figures[k] = figureAfter s k ∧
      (isPending (s.key k).phase = false → HoldGuarded (loadThresholds s) k keys[k]) := by
  obtain ⟨heated, figures, port, frame⟩ : HeatFrame (loadThresholds s) (heatKeys (loadThresholds s)) :=
    .heatSome allKeys _
  have spec := heatKeys_spec (loadThresholds s)
  rw [frame] at spec
  unfold heatWork
  dsimp only
  rw [frame]
  split
  · obtain ⟨keys, queue, examined, kept⟩ := reexamineHead_frame
      { loadThresholds s with
        keys := heated, heat := { (loadThresholds s).heat with figures := figures }, port := port }
    refine ⟨keys, queue, figures, port, examined, fun k => ⟨(spec k).1, fun still => ?_⟩⟩
    rw [kept k ((spec k).2.still still)]
    exact (spec k).2
  · exact ⟨heated, _, figures, port, rfl, fun k => ⟨(spec k).1, fun _ => (spec k).2⟩⟩

theorem stepHeat_of_due {s : State} {due : Time} (running : s.heat.nextStep = some due)
    (come : reached s.clock due = true) :
    stepHeat s = heatWork { s with heat := { s.heat with nextStep := some (timePlus due 1000) } } := by
  rw [stepHeat, running]
  exact if_pos come

/-- Settles O38: the keys are taken one by one from the loaded thresholds, and the examination after them launches
keys in PENDING alone. -/
theorem heatStepCompletes : Obligations.HeatStepCompletes := by
  intro s a t due arrived running come
  obtain ⟨keys, queue, figures, port, worked, spec⟩ :=
    heatWork_spec { a with heat := { a.heat with nextStep := some (timePlus due 1000) } }
  have run : exec (.heatStep t) s = .next (stepHeat (s.arrive t)) := rfl
  rw [arrived, stepHeat_of_due running come, worked] at run
  refine ⟨_, run, rfl, rfl, rfl, fun k => (spec k).1, fun k n v l d start hold => ?hold,
    fun k unheld still => ((spec k).2 still).other unheld, rfl, rfl, rfl, rfl, rfl, rfl, rfl⟩
  obtain ⟨figure, guarded⟩ := spec k
  obtain ⟨cut, kept, -⟩ := guarded (congrArg isPending hold)
  rw [State.heatOf, figure]
  exact ⟨cut n v l d start hold, kept n v l d start hold⟩

end Sys2Proof.Machine
end

section
/-! What a command can do to the claims on the drive pool, to the launched notes and to the heat figures, and why
each such move keeps the pool from being overdrawn and a hot key from being held (07_drive_power R129 to R140). -/

namespace Sys2Proof.Machine

/-! ### The duty a key drives with (R80, R129) -/

/-- The duty of a note launched NORMAL in STRIKE or HOLD. -/
def normalDuty : KeyPhase → Option Nat
  | .strike _ v l _ _ _ => if l.mode = .normal then some v.duty else none
  | .hold _ _ l duty _ => if l.mode = .normal then some duty else none
  | _ => none

section
variable {n : Note} {v : StrikeValues} {l : Launch}

theorem normalDuty_strike_of_normal {sensed : Bool} {e : Time} {m : Option Note} (normal : l.mode = .normal) :
    normalDuty (.strike n v l sensed e m) = some v.duty := if_pos normal

theorem normalDuty_strike_of_other {sensed : Bool} {e : Time} {m : Option Note} (other : l.mode ≠ .normal) :
    normalDuty (.strike n v l sensed e m) = none := if_neg other

theorem normalDuty_hold_of_normal {duty : Nat} {start : Time} (normal : l.mode = .normal) :
    normalDuty (.hold n v l duty start) = some duty := if_pos normal

theorem normalDuty_hold_of_other {duty : Nat} {start : Time} (other : l.mode ≠ .normal) :
    normalDuty (.hold n v l duty start) = none := if_neg other

end

theorem launchedNormal_eq_isSome (p : KeyPhase) : launchedNormal p = (normalDuty p).isSome := by
  cases p with
  | strike n v l sensed e m => by_cases normal : l.mode = .normal <;> simp [launchedNormal, normalDuty, normal]
  | hold n v l duty start => by_cases normal : l.mode = .normal <;> simp [launchedNormal, normalDuty, normal]
  | _ => rfl

theorem launchedNormal_eq_false_iff {p : KeyPhase} : launchedNormal p = false ↔ normalDuty p = none := by
  rw [launchedNormal_eq_isSome, Option.isSome_eq_false_iff, Option.isNone_iff_eq_none]

/-- A key drives with its NORMAL duty unless it is MUTE or QUIET is set. -/
theorem recordDrive_eq (s : State) (r : KeyRecord) :
    recordDrive s r = if r.flags.mute = true ∨ s.quiet = true then 0 else (normalDuty r.phase).getD 0 := by
  unfold recordDrive noteDrives
  cases r.phase with
  | strike n v l sensed e m =>
    by_cases normal : l.mode = .normal <;> cases r.flags.mute <;> cases s.quiet <;> simp [normalDuty, normal]
  | hold n v l duty start =>
    by_cases normal : l.mode = .normal <;> cases r.flags.mute <;> cases s.quiet <;> simp [normalDuty, normal]
  | _ => simp [normalDuty]

/-- No note launched NORMAL on a key that is MUTE or under QUIET. -/
theorem poolSafe_iff {s : State} : PoolSafe s ↔ claimSum s ≤ s.setting .poolCapacity ∧
    ∀ k : Key, (s.quiet = true ∨ (s.key k).flags.mute = true) → normalDuty (s.key k).phase = none := by
  simp only [PoolSafe, launchedNormal_eq_false_iff]

/-- Under the second half of the pool's safety the flags need no look: the claim is the NORMAL duty. -/
theorem PoolSafe.driveLevel_eq {s : State} (h : PoolSafe s) (k : Key) :
    driveLevel s k = (normalDuty (s.key k).phase).getD 0 := by
  obtain ⟨-, silenced⟩ := poolSafe_iff.mp h
  rw [driveLevel, recordDrive_eq]
  split
  · rename_i quieted
    rw [silenced k quieted.symm]
    rfl
  · rfl

/-! ### The sum of the claims, but one (R129) -/

/-- The claims of every pedal and of every key but one. -/
def claimsBut (k : Key) (s : State) : Nat :=
  ((allKeys.erase k).map (driveLevel s)).sum + s.pedals.sustain.drive + s.pedals.shift.drive

theorem claimSum_eq (k : Key) (s : State) : claimSum s = claimsBut k s + driveLevel s k := by
  have split := List.sum_map_erase (driveLevel s) (List.mem_finRange k)
  unfold claimSum claimsBut allKeys
  omega

theorem claimsBut_le (k : Key) (s : State) : claimsBut k s ≤ claimSum s := by
  rw [claimSum_eq k]
  exact Nat.le_add_right _ _

theorem claimsBut_setKey (k : Key) (r : KeyRecord) (s : State) : claimsBut k (s.setKey k r) = claimsBut k s := by
  have others : (allKeys.erase k).map (driveLevel (s.setKey k r)) = (allKeys.erase k).map (driveLevel s) :=
    List.map_congr_left fun j listed => by
      have other := ((List.nodup_finRange 88).mem_erase_iff.mp listed).1
      rw [driveLevel, s.key_setKey_ne k j r (Ne.symm other)]
      rfl
  rw [claimsBut, others]
  rfl

theorem driveLevel_setKey (k : Key) (r : KeyRecord) (s : State) : driveLevel (s.setKey k r) k = recordDrive s r := by
  rw [driveLevel, State.key_setKey_same]
  rfl

theorem claimSum_setKey (k : Key) (r : KeyRecord) (s : State) :
    claimSum (s.setKey k r) = claimsBut k s + recordDrive s r := by
  rw [claimSum_eq k, claimsBut_setKey, driveLevel_setKey]

theorem claimSum_le {s s' : State} (keys : ∀ k, driveLevel s' k ≤ driveLevel s k)
    (pedals : ∀ p, (s'.pedal p).drive ≤ (s.pedal p).drive) : claimSum s' ≤ claimSum s :=
  Nat.add_le_add (Nat.add_le_add (List.sum_le_sum fun k _ => keys k) (pedals .sustain)) (pedals .shift)

/-! ### Moves that drive no more -/

/-- A key's record that drives no more and is held no more than before: a NORMAL note keeps its duty, and MUTE comes
only over a key with no such note. -/
structure Eased (r r' : KeyRecord) : Prop where
  normal : ∀ d, normalDuty r'.phase = some d → normalDuty r.phase = some d
  mute : r'.flags.mute = true → r.flags.mute = true ∨ normalDuty r'.phase = none
  hold : isHold r'.phase = true → isHold r.phase = true

namespace Eased

variable {r r' : KeyRecord}

theorem of_same (phase : r'.phase = r.phase) (flags : r'.flags = r.flags) : Eased r r' where
  normal := fun d => by rw [phase]; exact id
  mute := fun muted => .inl (by rw [← flags]; exact muted)
  hold := by rw [phase]; exact id

theorem refl (r : KeyRecord) : Eased r r := of_same rfl rfl

/-- A key with no note launched NORMAL. -/
theorem of_unlaunched (silent : normalDuty r'.phase = none)
    (held : isHold r'.phase = true → isHold r.phase = true) : Eased r r' where
  normal := fun d driven => by rw [silent] at driven; cases driven
  mute := fun _ => .inr silent
  hold := held

/-- A key with nothing struck or held. -/
theorem of_silent (silent : normalDuty r'.phase = none) (unheld : isHold r'.phase = false) : Eased r r' :=
  of_unlaunched silent fun held => by rw [unheld] at held; cases held

/-- A key that plays on with the same NORMAL duty. -/
theorem of_playing {p : KeyPhase} (duty : normalDuty p = normalDuty r.phase) (held : isHold p = isHold r.phase) :
    Eased r { r with phase := p } where
  normal := fun d driven => by rw [← duty]; exact driven
  mute := .inl
  hold := fun holds => by rw [← held]; exact holds

theorem withdrawn (now gapEnd : Time) (r : KeyRecord) :
    Eased r { r with phase := withdrawnPhase now gapEnd r.phase } := by
  cases phase : r.phase with
  | strike n v l sensed e m => cases m <;> exact of_playing (by rw [phase]; rfl) (by rw [phase]; rfl)
  | _ => exact of_silent rfl rfl

theorem silenced (gapEnd : Time) (r : KeyRecord) : Eased r { r with phase := silencedPhase gapEnd r.phase } := by
  cases r.phase <;> exact of_silent rfl rfl

theorem released (now gapEnd release : Time) (r : KeyRecord) :
    Eased r { r with phase := releasedPhase now gapEnd release r.phase } := by
  cases phase : r.phase with
  | strike n v l sensed e m => cases m <;> exact of_playing (by rw [phase]; rfl) (by rw [phase]; rfl)
  | hold n v l duty start =>
    dsimp only [releasedPhase]
    split
    · exact of_silent rfl rfl
    · exact of_playing (by rw [phase]; rfl) (by rw [phase]; rfl)
  | _ => exact of_silent rfl rfl

theorem normalDuty_eq_none (h : Eased r r') (silent : normalDuty r.phase = none) : normalDuty r'.phase = none :=
  Option.eq_none_iff_forall_ne_some.mpr fun d driven => by
    rw [h.normal d driven] at silent
    cases silent

end Eased

/-- A state whose keys and pedals claim no more of the same pool. -/
structure Eases (s s' : State) : Prop where
  keys : ∀ k, Eased (s.key k) (s'.key k)
  quiet : s'.quiet = true → s.quiet = true ∨ ∀ k, normalDuty (s'.key k).phase = none
  pedals : ∀ p, (s'.pedal p).drive ≤ (s.pedal p).drive
  capacity : s'.setting .poolCapacity = s.setting .poolCapacity

namespace Eases

variable {s s' : State}

theorem of_rest (keys : ∀ k, Eased (s.key k) (s'.key k)) (quiet : s'.quiet = s.quiet := by rfl)
    (pedals : ∀ p, (s'.pedal p).drive ≤ (s.pedal p).drive := by exact fun _ => le_rfl)
    (settings : s'.settings = s.settings := by rfl) : Eases s s' where
  keys := keys
  quiet := fun quieted => .inl (quiet ▸ quieted)
  pedals := pedals
  capacity := by rw [State.setting, settings]; rfl

theorem setKey {k : Key} {r : KeyRecord} (eased : Eased (s.key k) r) : Eases s (s.setKey k r) := .of_rest fun j => by
  rw [State.key_setKey]
  split
  · rename_i own
    exact own ▸ eased
  · exact .refl _

theorem updatePhases {f : Key → KeyRecord → KeyPhase}
    (eased : ∀ k, Eased (s.key k) { s.key k with phase := f k (s.key k) }) : Eases s (updatePhases f s) := by
  have pedals : (Machine.updatePhases f s).pedals = s.pedals := by rw [updatePhases_frame]
  exact .of_rest (fun k => by rw [updatePhases_key]; exact eased k) (by rw [updatePhases_frame])
    (fun p => by cases p <;> simp [State.pedal, pedals]) (by rw [updatePhases_frame])

end Eases

/-- A move of the commands on the claims, the launched notes and the heat figures. -/
inductive DriveStep (s : State) : State → Prop
  /-- The keys and the pedals claim no more, and the figures and HEAT_MAX stand. -/
  | ease {s' : State} (eases : Eases s s') (figures : s'.heat.figures = s.heat.figures)
      (max : s'.heat.max = s.heat.max) : DriveStep s s'
  /-- Nothing drives (R205, R206). -/
  | silence {s' : State} (keys : ∀ k, (s'.key k).phase = .idle ∨ ∃ reason, (s'.key k).phase = .retired reason)
      (pedals : ∀ p, (s'.pedal p).drive = 0) : DriveStep s s'
  /-- The head of the strike queue is launched as decided (R119). -/
  | launch {k : Key} {mode : LaunchMode} (decided : launchDecision s k = some mode) : DriveStep s (launchKey mode k s)
  /-- A note in play is held on a key below HEAT_MAX, its claim growing within the free units (R90, R131). -/
  | hold {k : Key} {n : Note} {v : StrikeValues} {l : Launch} {start : Time} (cool : s.heatOf k < s.heat.max)
      (playing : l.mode = .normal → normalDuty (s.key k).phase ≠ none) :
      DriveStep s (s.setPhase k (.hold n v l (holdDutyFor s k l (driveLevel s k)) start))
  /-- A pedal's claim grows within the free units (R133). -/
  | pedal {p : Pedal} {r : PedalRecord} {request : Nat} (given : r.drive = givenDrive s (s.pedal p) request) :
      DriveStep s (s.setPedal p r)
  /-- A setting is written, the capacity not below the claims (R134). -/
  | setting {x : Setting} {v : Nat} (fits : x = .poolCapacity → claimSum s ≤ v) : DriveStep s (s.putSetting x v)
  /-- Every figure advances, from the loaded thresholds (R138, R142). -/
  | heat : DriveStep s (heatKeys (loadThresholds s))

theorem launchDecision_normal {s : State} {k : Key} (decided : launchDecision s k = some .normal) :
    (s.key k).flags.mute = false ∧ s.quiet = false ∧ poolGrants s (pendingDuty (s.key k)) = true := by
  unfold launchDecision at decided
  split at decided
  · cases decided
  · split at decided
    · cases decided
    · rename_i loud
      split at decided
      · rename_i granted
        rw [Bool.or_eq_true, not_or, Bool.not_eq_true, Bool.not_eq_true] at loud
        exact ⟨loud.1, loud.2, granted⟩
      · cases decided

/-! ### The pool (R129, R99, R100) -/

namespace PoolSafe

variable {s s' : State}

theorem ease (h : PoolSafe s) (eases : Eases s s') : PoolSafe s' := by
  obtain ⟨fits, silenced⟩ := poolSafe_iff.mp h
  obtain ⟨keys, quiet, pedals, capacity⟩ := eases
  have silenced' : ∀ k, (s'.quiet = true ∨ (s'.key k).flags.mute = true) → normalDuty (s'.key k).phase = none := by
    rintro k (quieted | muted)
    · rcases quiet quieted with before | none
      · exact (keys k).normalDuty_eq_none (silenced k (.inl before))
      · exact none k
    · rcases (keys k).mute muted with before | none
      · exact (keys k).normalDuty_eq_none (silenced k (.inr before))
      · exact none
  refine poolSafe_iff.mpr ⟨?_, silenced'⟩
  rw [capacity]
  refine (claimSum_le (fun k => ?_) pedals).trans fits
  rw [h.driveLevel_eq, driveLevel, recordDrive_eq]
  split
  · exact Nat.zero_le _
  · cases duty : normalDuty (s'.key k).phase with
    | none => exact Nat.zero_le _
    | some d => rw [(keys k).normal d duty]

theorem silence (keys : ∀ k, (s.key k).phase = .idle ∨ ∃ reason, (s.key k).phase = .retired reason)
    (pedals : ∀ p, (s.pedal p).drive = 0) : PoolSafe s := by
  have none (k : Key) : normalDuty (s.key k).phase = none := by
    rcases keys k with idle | ⟨reason, retired⟩
    · rw [idle]; rfl
    · rw [retired]; rfl
  have still (k : Key) : driveLevel s k = 0 := by
    rw [driveLevel, recordDrive_eq, none k]
    exact ite_self 0
  have zero : (allKeys.map (driveLevel s)).sum = 0 := by
    rw [List.map_congr_left fun k _ => still k, List.sum_map_zero]
  have sum : claimSum s = 0 :=
    congrArg₂ (· + ·) (congrArg₂ (· + ·) zero (pedals .sustain)) (pedals .shift)
  exact poolSafe_iff.mpr ⟨by rw [sum]; exact Nat.zero_le _, fun k _ => none k⟩

/-- One key's record changed: its new claim fits beside the others, and none that is silenced is launched NORMAL. -/
theorem setKey (h : PoolSafe s) {k : Key} {r : KeyRecord}
    (fits : claimsBut k s + recordDrive s r ≤ s.setting .poolCapacity)
    (silenced : (s.quiet = true ∨ r.flags.mute = true) → normalDuty r.phase = none) : PoolSafe (s.setKey k r) := by
  refine poolSafe_iff.mpr ⟨by rw [claimSum_setKey]; exact fits, fun j => ?_⟩
  rw [State.key_setKey]
  split
  · exact silenced
  · exact (poolSafe_iff.mp h).2 j

theorem launch (h : PoolSafe s) {k : Key} {mode : LaunchMode} (decided : launchDecision s k = some mode) :
    PoolSafe (launchKey mode k s) := by
  obtain ⟨fits, -⟩ := poolSafe_iff.mp h
  have queued {u : State} {q : List QueueEntry} (safe : PoolSafe u) : PoolSafe (u.setEntries q) := safe
  refine queued ?_
  cases phase : (s.key k).phase with
  | pending n v =>
    rw [launchedRecord_of_pending mode phase]
    by_cases normal : mode = .normal
    · subst normal
      obtain ⟨unmuted, loud, granted⟩ := launchDecision_normal decided
      rw [pendingDuty, phase] at granted
      have grown := poolGrants_fits s v.duty granted fits
      rw [claimSum_eq k] at grown
      refine h.setKey ?_ fun silenced => ?_
      · rw [recordDrive_eq, unmuted, loud]
        exact (Nat.add_le_add_right (Nat.le_add_right _ _) _).trans grown
      · rw [unmuted, loud] at silenced
        exact silenced.elim nofun nofun
    · refine h.setKey ?_ fun _ => normalDuty_strike_of_other normal
      rw [recordDrive_eq, normalDuty_strike_of_other normal, Option.getD_none, ite_self]
      exact (claimsBut_le k s).trans fits
  | _ =>
    rw [launchedRecord_of_not_pending s mode _ (by rw [phase]; rfl), setKey_same]
    exact h

/-- A note in play held: its duty grows no further than the free units (R131). -/
theorem hold (h : PoolSafe s) {k : Key} {n : Note} {v : StrikeValues} {l : Launch} {start : Time}
    (playing : l.mode = .normal → normalDuty (s.key k).phase ≠ none) :
    PoolSafe (s.setPhase k (.hold n v l (holdDutyFor s k l (driveLevel s k)) start)) := by
  obtain ⟨fits, silenced⟩ := poolSafe_iff.mp h
  refine h.setKey ?_ fun quieted => if_neg fun normal => playing normal (silenced k quieted)
  show claimsBut k s + (if noteDrives s (s.key k).flags l then holdDutyFor s k l (driveLevel s k) else 0) ≤ _
  split
  · rename_i drives
    rw [holdDutyFor, if_pos drives]
    exact limitedClaim_keeps_pool s _ _ _ (claimSum_eq k s) fits
  · exact (claimsBut_le k s).trans fits

theorem pedal (h : PoolSafe s) {p : Pedal} {r : PedalRecord} {request : Nat}
    (given : r.drive = givenDrive s (s.pedal p) request) : PoolSafe (s.setPedal p r) := by
  obtain ⟨fits, silenced⟩ := poolSafe_iff.mp h
  have keys : allKeys.map (driveLevel (s.setPedal p r)) = allKeys.map (driveLevel s) := by cases p <;> rfl
  have grown := (limitedClaim_le s (s.pedal p).drive request).2
  rw [← givenDrive, ← given, freeUnits] at grown
  refine poolSafe_iff.mpr ⟨?_, by cases p <;> exact silenced⟩
  rw [State.setPedal_setting]
  unfold claimSum at fits grown ⊢
  rw [keys]
  cases p with
  | sustain => dsimp only [State.setPedal, State.pedal] at *; omega
  | shift => dsimp only [State.setPedal, State.pedal] at *; omega

theorem putSetting (h : PoolSafe s) {x : Setting} {v : Nat} (fits : x = .poolCapacity → claimSum s ≤ v) :
    PoolSafe (s.putSetting x v) := by
  obtain ⟨before, silenced⟩ := poolSafe_iff.mp h
  refine poolSafe_iff.mpr ⟨?_, silenced⟩
  rw [State.setting_putSetting]
  split
  · rename_i capacity
    exact fits capacity
  · exact before

theorem raise (h : PoolSafe s) (kind : NoticeKind) (fields : List Byte) : PoolSafe (s.raise kind fields) :=
  h.ease (.of_rest (fun k => by rw [State.raise_key]; exact .refl _) (s.raise_quiet kind fields)
    (fun p => by rw [State.raise_pedal]) (s.raise_settings kind fields))

theorem heatKey (h : PoolSafe s) (k : Key) : PoolSafe (heatKey k s) := by
  have heated : PoolSafe (s.setHeat k (heatedFigure (s.heatOf k) (driveLevel s k))) :=
    h.ease (.of_rest fun _ => .refl _)
  unfold Machine.heatKey guardHold
  split
  · rename_i n v l d start phase
    split
    · exact (heated.ease (.setKey (.of_silent rfl rfl))).raise _ _
    · exact heated.hold fun normal => by rw [phase, normalDuty_hold_of_normal normal]; exact Option.some_ne_none d
  · exact heated

theorem heatKeys (h : PoolSafe s) : PoolSafe (heatKeys (loadThresholds s)) := by
  have loaded : PoolSafe (loadThresholds s) := h.ease (.of_rest fun _ => .refl _)
  exact List.foldlRecOn allKeys _ loaded fun _ kept k _ => kept.heatKey k

/-- No move overdraws the pool or leaves a silenced note NORMAL. -/
theorem of_driveStep (h : PoolSafe s) (move : DriveStep s s') : PoolSafe s' := by
  cases move with
  | ease eases _ _ => exact h.ease eases
  | silence keys pedals => exact silence keys pedals
  | launch decided => exact h.launch decided
  | hold _ playing => exact h.hold playing
  | pedal given => exact h.pedal given
  | setting fits => exact h.putSetting fits
  | heat => exact h.heatKeys

end PoolSafe

/-! ### The held keys (R140) -/

/-- A key that a heat step leaves in HOLD is below HEAT_MAX. -/
theorem HoldGuarded.cool {s : State} {k : Key} {r : KeyRecord} (h : HoldGuarded s k r) (held : isHold r.phase = true) :
    figureAfter s k < s.heat.max := by
  obtain ⟨cut, -, other⟩ := h
  refine Nat.lt_of_not_le fun hot => ?_
  cases phase : (s.key k).phase with
  | hold n v l d start =>
    rw [cut n v l d start phase hot] at held
    cases held
  | _ =>
    rw [other (by rw [phase]; rfl), phase] at held
    cases held

theorem launchedRecord_hold {s : State} {mode : LaunchMode} {r : KeyRecord}
    (held : isHold (launchedRecord s mode r).phase = true) : isHold r.phase = true := by
  unfold launchedRecord at held
  split at held
  · cases held
  · exact held

namespace HeatSafe

variable {s s' : State}

/-- No key comes to be held, and the figures and HEAT_MAX stand. -/
theorem of_holds (h : HeatSafe s) (holds : ∀ k, isHold (s'.key k).phase = true → isHold (s.key k).phase = true)
    (figures : s'.heat.figures = s.heat.figures := by rfl) (max : s'.heat.max = s.heat.max := by rfl) :
    HeatSafe s' := fun k held => by
  rw [max, State.heatOf, figures]
  exact h k (holds k held)

theorem silence (keys : ∀ k, (s.key k).phase = .idle ∨ ∃ reason, (s.key k).phase = .retired reason) :
    HeatSafe s := fun k held => by
  rcases keys k with idle | ⟨reason, retired⟩
  · rw [idle] at held
    cases held
  · rw [retired] at held
    cases held

theorem launch (h : HeatSafe s) (k : Key) (mode : LaunchMode) : HeatSafe (launchKey mode k s) := by
  refine h.of_holds fun j => ?_
  rw [launchKey, State.setEntries_key, State.key_setKey]
  split
  · rename_i own
    exact own ▸ launchedRecord_hold
  · exact id

theorem hold (h : HeatSafe s) {k : Key} (cool : s.heatOf k < s.heat.max) (p : KeyPhase) :
    HeatSafe (s.setPhase k p) := fun j held => by
  rw [State.key_setPhase] at held
  split at held
  · rename_i own
    exact own ▸ cool
  · exact h j held

theorem heatKeys (s : State) : HeatSafe (heatKeys (loadThresholds s)) := fun k held => by
  obtain ⟨figure, guarded⟩ := heatKeys_spec (loadThresholds s) k
  have below := guarded.cool held
  obtain ⟨_, _, _, frame⟩ : HeatFrame _ (Machine.heatKeys (loadThresholds s)) := .heatSome allKeys _
  rw [figure, frame]
  exact below

/-- No move leaves a hot key held. -/
theorem of_driveStep (h : HeatSafe s) (move : DriveStep s s') : HeatSafe s' := by
  cases move with
  | ease eases figures max => exact h.of_holds (fun k => (eases.keys k).hold) figures max
  | silence keys _ => exact silence keys
  | launch _ => exact h.launch _ _
  | hold cool _ => exact h.hold cool _
  | @pedal p r _ _ =>
    exact h.of_holds (fun k => by rw [State.setPedal_key]; exact id) (by rw [State.setPedal_heat])
      (by rw [State.setPedal_heat])
  | setting _ => exact h.of_holds fun _ => id
  | heat => exact heatKeys s

end HeatSafe

end Sys2Proof.Machine
end

section
/-! The moves of the shared operations on the claims, the launched notes and the heat figures: the examination of the
head, claims and closes, withdrawal, strike ends, the clock (05_the_key_table, 06_strike_computation).
The lemmas are checked one after another: a thread for each would take more memory than the check allows. -/

set_option Elab.async false

namespace Sys2Proof.Machine

/-- A run of moves. -/
def DriveSteps : State → State → Prop := Relation.ReflTransGen DriveStep

namespace DriveSteps

variable {s₀ s s' : State}

theorem refl (s : State) : DriveSteps s s := Relation.ReflTransGen.refl

theorem move (h : DriveSteps s₀ s) (last : DriveStep s s') : DriveSteps s₀ s' := Relation.ReflTransGen.tail h last

/-- What every move keeps, a run of them keeps. -/
theorem keeps {P : State → Prop} (each : ∀ {s s'}, P s → DriveStep s s' → P s') (h : DriveSteps s s') (before : P s) :
    P s' := by
  induction h with
  | refl => exact before
  | tail _ last ih => exact each ih last

/-! ### Moves that claim no more -/

/-- An event on other blocks. -/
theorem other (h : DriveSteps s₀ s) (keys : s'.keys = s.keys := by rfl) (quiet : s'.quiet = s.quiet := by rfl)
    (pedals : ∀ p, (s'.pedal p).drive ≤ (s.pedal p).drive := by exact fun _ => le_rfl)
    (settings : s'.settings = s.settings := by rfl) (heat : s'.heat = s.heat := by rfl) : DriveSteps s₀ s' :=
  h.move (.ease (.of_rest (fun k => .of_same (by rw [State.key, keys]; rfl) (by rw [State.key, keys]; rfl)) quiet pedals
    settings) (by rw [heat]) (by rw [heat]))

theorem setKey (h : DriveSteps s₀ s) {k : Key} {r : KeyRecord} (eased : Eased (s.key k) r) :
    DriveSteps s₀ (s.setKey k r) := h.move (.ease (.setKey eased) rfl rfl)

/-- A key with nothing struck or held. -/
theorem rest (h : DriveSteps s₀ s) (k : Key) {p : KeyPhase} (silent : normalDuty p = none := by rfl)
    (unheld : isHold p = false := by rfl) : DriveSteps s₀ (s.setPhase k p) := h.setKey (.of_silent silent unheld)

/-- A key that plays on as before. -/
theorem playOn (h : DriveSteps s₀ s) {k : Key} {p p' : KeyPhase} (phase : (s.key k).phase = p)
    (duty : normalDuty p' = normalDuty p := by rfl) (held : isHold p' = isHold p := by rfl) :
    DriveSteps s₀ (s.setPhase k p') :=
  h.setKey (.of_playing (by rw [phase]; exact duty) (by rw [phase]; exact held))

theorem updatePhases (h : DriveSteps s₀ s) {f : Key → KeyRecord → KeyPhase}
    (eased : ∀ k, Eased (s.key k) { s.key k with phase := f k (s.key k) }) : DriveSteps s₀ (updatePhases f s) :=
  h.move (.ease (.updatePhases eased) (by rw [updatePhases_frame]) (by rw [updatePhases_frame]))

theorem raise (h : DriveSteps s₀ s) (kind : NoticeKind) (fields : List Byte) : DriveSteps s₀ (s.raise kind fields) :=
  h.other (by rw [State.raise_keys]) (by rw [State.raise_quiet]) (fun p => by rw [State.raise_pedal])
    (by rw [State.raise_settings]) (by rw [State.raise_heat])

theorem setHalf (h : DriveSteps s₀ s) (half : Half) (c : HalfContext) : DriveSteps s₀ (s.setHalf half c) := by
  cases half <;> exact h.other

/-- A pedal that claims no more. -/
theorem setPedal (h : DriveSteps s₀ s) (p : Pedal) {r : PedalRecord}
    (drive : r.drive ≤ (s.pedal p).drive := by exact le_rfl) : DriveSteps s₀ (s.setPedal p r) :=
  h.move (.ease
    { keys := fun k => by rw [State.setPedal_key]; exact .refl _
      quiet := fun quieted => .inl (by rw [State.setPedal_quiet] at quieted; exact quieted)
      pedals := fun q => by
        by_cases own : p = q
        · subst own
          rw [State.pedal_setPedal_same]
          exact drive
        · rw [State.pedal_setPedal_ne s p q r own]
      capacity := s.setPedal_setting p r _ }
    (by rw [State.setPedal_heat]) (by rw [State.setPedal_heat]))

/-- An event on one key after another. -/
theorem foldl_keys (h : DriveSteps s₀ s) {f : Key → State → State}
    (each : ∀ k s, DriveSteps s₀ s → DriveSteps s₀ (f k s)) (keys : List Key) :
    DriveSteps s₀ (keys.foldl (fun t k => f k t) s) :=
  List.foldlRecOn keys _ h fun t kept k _ => each k t kept

/-! ### The examination of the head (R118 to R121) -/

theorem setEntries (h : DriveSteps s₀ s) (q : List QueueEntry) : DriveSteps s₀ (s.setEntries q) := h.other

theorem examineLoop (h : DriveSteps s₀ s) (n : Nat) : DriveSteps s₀ (examineLoop n s) := by
  induction n generalizing s with
  | zero => exact h
  | succ n ih =>
    unfold Machine.examineLoop
    split
    · exact h.other
    · split
      · split
        · rename_i decided
          exact ih (h.move (.launch decided))
        · exact h.other
      · exact h.other

theorem examineHead (h : DriveSteps s₀ s) : DriveSteps s₀ (examineHead s) := h.examineLoop _

theorem reexamineHead (h : DriveSteps s₀ s) : DriveSteps s₀ (reexamineHead s) := by
  rcases reexamineHead_spec s with e | e <;> rw [e]
  · exact h
  · exact h.examineHead

/-- The one examination after an event (R132). -/
theorem settling {f : State → State} (h : DriveSteps s₀ (f s)) (placed : Option Key) :
    DriveSteps s₀ (settling placed f s) := by
  rcases settling_spec placed f s with e | e <;> rw [e]
  · exact h
  · exact h.examineHead

/-! ### Claims and closes (R81 to R88) -/

theorem enterPending (h : DriveSteps s₀ s) (k : Key) (n : Note) (v : StrikeValues) :
    DriveSteps s₀ (enterPending k n v s) := (h.rest k).setEntries _

theorem levelNote (h : DriveSteps s₀ s) (c : Claim) : DriveSteps s₀ (levelNote c s).1 := by
  unfold Machine.levelNote
  cases c.level with
  | roll onset accent => exact h.setHalf _ _
  | given level => exact h
  | follow => exact h

theorem takeClaim (h : DriveSteps s₀ s) (c : Claim) : DriveSteps s₀ (takeClaim c s) := by
  have levelled := h.levelNote c
  unfold Machine.takeClaim
  split
  rename_i s1 n answer
  rw [answer] at levelled
  split
  · exact levelled.enterPending _ _ _
  · exact levelled.enterPending _ _ _
  · rename_i phase; exact levelled.playOn phase
  · rename_i phase; exact levelled.playOn phase
  · exact levelled.rest _
  · exact levelled.rest _
  · exact levelled.rest _
  · exact h

theorem claim (h : DriveSteps s₀ s) (c : Claim) : DriveSteps s₀ (claim c s).1 := by
  rcases claim_spec c s with ⟨-, e⟩ | ⟨-, -, e⟩ | ⟨-, -, -, e⟩ | ⟨-, -, -, e⟩ <;> rw [e]
  · exact h
  · exact h
  · exact h
  · exact (h.takeClaim c).settling _

theorem closeKey (h : DriveSteps s₀ s) (o : Owner) (release : Time) (k : Key) :
    DriveSteps s₀ (closeKey o release k s) := by
  unfold Machine.closeKey
  split
  · rw [storeRelease_eq]
    exact h.setKey (.released _ _ _ _)
  · exact h

theorem closeAll (h : DriveSteps s₀ s) (o : Owner) (release : Time) : DriveSteps s₀ (closeAll o release s) :=
  h.foldl_keys (fun k _ kept => kept.closeKey o release k) allKeys

/-! ### Withdrawal and silence (R97, R100, R101, R106, R107) -/

theorem withdrawSource (h : DriveSteps s₀ s) (source : Source) : DriveSteps s₀ (withdrawSource source s) :=
  h.updatePhases fun k => by
    split
    · exact .withdrawn _ _ _
    · exact .refl _

theorem silenceOutside (h : DriveSteps s₀ s) (source : Source) (low high : Nat) :
    DriveSteps s₀ (silenceOutside source low high s) :=
  h.updatePhases fun k => by
    split
    · exact .silenced _ _
    · exact .refl _

theorem silenceKeys (h : DriveSteps s₀ s) : DriveSteps s₀ (silenceKeys s) := h.updatePhases fun _ => .silenced _ _

theorem cancelNote (h : DriveSteps s₀ s) (k : Key) : DriveSteps s₀ (cancelNote k s) :=
  (h.setKey (.withdrawn _ _ _)).setEntries _

theorem retireKey (h : DriveSteps s₀ s) (k : Key) (reason : RetireReason) : DriveSteps s₀ (retireKey k reason s) :=
  ((h.rest k).setEntries _).raise _ _

/-! ### Strike ends and the hold timeout (R90, R91, R94a, R126) -/

theorem endStrike (h : DriveSteps s₀ s) (k : Key) : DriveSteps s₀ (endStrike k s) := by
  unfold Machine.endStrike
  split
  · exact h.rest k
  · rename_i phase
    split
    · exact h.rest k
    · split
      · exact (h.rest k).raise _ _
      · rename_i cool
        exact h.move (.hold (Nat.lt_of_not_le cool) fun normal => by
          rw [phase, normalDuty_strike_of_normal normal]
          exact Option.some_ne_none _)
  · exact h

theorem missStrike (h : DriveSteps s₀ s) (k : Key) : DriveSteps s₀ (missStrike k s) := by
  have counted : DriveSteps s₀ (s.setKey k { s.key k with missCount := (s.key k).missCount + 1 }) :=
    h.setKey (.of_same rfl rfl)
  unfold Machine.missStrike
  dsimp only
  split
  · exact counted.retireKey k _
  · exact counted.endStrike k

theorem unsenseStrike (h : DriveSteps s₀ s) (k : Key) : DriveSteps s₀ (unsenseStrike k s) := by
  unfold Machine.unsenseStrike
  split
  · rename_i n v l _ _ m phase
    have unsensed : DriveSteps s₀ (s.setPhase k (.strike n v l false (unsensedEnd v l) m)) := h.playOn phase
    dsimp only
    split
    · exact unsensed.endStrike k
    · exact unsensed
  · exact h

theorem timeOutKey (h : DriveSteps s₀ s) (k : Key) : DriveSteps s₀ (timeOutKey k s) := by
  unfold Machine.timeOutKey
  split
  · exact (h.rest k).raise _ _
  · exact h

theorem timeOutIfDue (h : DriveSteps s₀ s) (k : Key) : DriveSteps s₀ (timeOutIfDue k s) := by
  unfold Machine.timeOutIfDue
  split
  · split
    · exact h.timeOutKey k
    · exact h
  · exact h

/-! ### The clock (log 3, 4) -/

theorem arriveLoop (h : DriveSteps s₀ s) (n : Nat) (t : Time) : DriveSteps s₀ (arriveLoop n t s) := by
  induction n generalizing s with
  | zero => exact h.other
  | succ n ih =>
    unfold Machine.arriveLoop
    split
    · exact h.other
    · rename_i o k _
      have moved : DriveSteps s₀ (s.atTime (timePlus s.clock o)) := h.other
      exact ih ((moved.timeOutKey k).settling none)

theorem arrive (s : State) (t : Time) : DriveSteps s (s.arrive t) := by
  obtain ⟨port, served⟩ := serveKeyFinds_frame s.port.intake.length s
  rw [State.arrive, served]
  have found : DriveSteps s { s with port := port } := (refl s).other
  exact found.arriveLoop 88 t

end DriveSteps

end Sys2Proof.Machine
end

section
/-! The moves of the commands on the claims, the launched notes and the heat figures, block by block (07_drive_power
R129 to R140).
The lemmas are checked one after another: a thread for each would take more memory than the check allows. -/

set_option Elab.async false

namespace Sys2Proof.Machine

namespace DriveSteps

variable {s₀ s : State}

/-! ### The scan receiver and the tracker -/

theorem rollPedalEvent (h : DriveSteps s₀ s) (p : Pedal) (time : Time) (target : Nat) :
    DriveSteps s₀ (rollPedalEvent p time target s) := by
  unfold Machine.rollPedalEvent
  dsimp only
  split
  · exact (h.setPedal p).setPedal p
  · exact h

theorem rollNoteOpen (h : DriveSteps s₀ s) (c : Channel) (k : Key) (onsetLine : LineNo) (onsetTime : Time) :
    DriveSteps s₀ (rollNoteOpen c k onsetLine onsetTime s) := by
  unfold Machine.rollNoteOpen
  dsimp only
  split
  · exact h.claim _
  · exact (h.claim _).other

theorem sendControl (h : DriveSteps s₀ s) (c : Channel) (e : ApertureEvent) : DriveSteps s₀ (sendControl c e s) := by
  unfold Machine.sendControl
  split
  · exact h.setHalf _ _
  · exact h.setHalf _ _
  · exact h

theorem sendNoteClose (h : DriveSteps s₀ s) (c : Channel) (e : ApertureEvent) :
    DriveSteps s₀ (sendNoteClose c e s) := by
  unfold Machine.sendNoteClose
  split
  · exact (h.closeKey _ _ _).settling none
  · exact h

theorem sendNoteOpen (h : DriveSteps s₀ s) (c : Channel) (e : ApertureEvent) : DriveSteps s₀ (sendNoteOpen c e s) := by
  unfold Machine.sendNoteOpen
  split
  · exact h.rollNoteOpen _ _ _ _
  · exact h

theorem sendPedal (h : DriveSteps s₀ s) (c : Channel) (e : ApertureEvent) : DriveSteps s₀ (sendPedal c e s) := by
  unfold Machine.sendPedal
  split
  · exact h.rollPedalEvent _ _ _
  · exact h.rollPedalEvent _ _ _
  · exact h

theorem sendGroup (h : DriveSteps s₀ s) {send : Channel → ApertureEvent → State → State}
    (each : ∀ {s} c e, DriveSteps s₀ s → DriveSteps s₀ (send c e s)) (events : List (Channel × ApertureEvent)) :
    DriveSteps s₀ (sendGroup send events s) :=
  List.foldlRecOn events _ h fun _ kept e _ => each e.1 e.2 kept

theorem takeSampledLine (h : DriveSteps s₀ s) (line : LineNo) (time : Time) (states : Vector Bool 102) :
    DriveSteps s₀ (takeSampledLine line time states s) := by
  refine sendGroup (sendGroup (sendGroup (sendGroup h.other ?_ _) ?_ _) ?_ _) ?_ _
  · exact fun c e kept => kept.sendControl c e
  · exact fun c e kept => kept.sendNoteClose c e
  · exact fun c e kept => kept.sendNoteOpen c e
  · exact fun c e kept => kept.sendPedal c e

/-- Pedals let go keep their drive (R174). -/
theorem rollWithdrawal (h : DriveSteps s₀ s) : DriveSteps s₀ (rollWithdrawal s) := by
  have letGo : DriveSteps s₀ (withdrawPedals (Machine.settling none (Machine.withdrawSource .roll) s)) := by
    refine ((h.withdrawSource .roll).settling none).other (pedals := fun p => ?_)
    rw [withdrawPedals_pedal]
    split <;> exact le_rfl
  exact letGo.other

/-- A departure from LOCKED withdraws the roll (R29, R31). -/
theorem departure (h : DriveSteps s₀ s) (t : Tracker) :
    DriveSteps s₀ (stopLineTimer (Machine.rollWithdrawal (emptyApertures (s.setTracker t)))) := by
  have emptied : DriveSteps s₀ (emptyApertures (s.setTracker t)) := h.other
  exact emptied.rollWithdrawal.other

theorem enterLost (h : DriveSteps s₀ s) (reason : LossReason) (line : LineNo) :
    DriveSteps s₀ (enterLost reason line s) := (h.departure _).raise _ _

theorem rollEnd (h : DriveSteps s₀ s) (line : LineNo) : DriveSteps s₀ (rollEnd line s) :=
  (h.departure s.tracker.stop).other.raise _ _

theorem seekLine (h : DriveSteps s₀ s) (ln : CompletedLine) : DriveSteps s₀ (seekLine ln s) := by
  unfold Machine.seekLine
  dsimp only
  split
  · exact h.other.raise _ _
  · exact h.other

theorem sendHeldLines (h : DriveSteps s₀ s) (ln : CompletedLine) (left : Nat) :
    DriveSteps s₀ (sendHeldLines ln left s) := by
  induction left generalizing s with
  | zero => exact h
  | succ left ih => exact ih (h.takeSampledLine _ _ _)

theorem sampleLine (h : DriveSteps s₀ s) (ln : CompletedLine) : DriveSteps s₀ (sampleLine ln s) := by
  unfold Machine.sampleLine
  extract_lets states marks
  split
  · exact h.rollEnd _
  · exact takeSampledLine h.other _ _ _

theorem followLine (h : DriveSteps s₀ s) (ln : CompletedLine) : DriveSteps s₀ (followLine ln s) := by
  have followed : DriveSteps s₀ (s.setTracker (s.tracker.follow ln)) := h.other
  unfold Machine.followLine
  dsimp only
  split
  · exact (followed.enterLost _ _).seekLine ln
  · exact followed.sampleLine ln

theorem lockedLine (h : DriveSteps s₀ s) (ln : CompletedLine) : DriveSteps s₀ (lockedLine ln s) := by
  unfold Machine.lockedLine
  split
  · exact (h.enterLost _ _).seekLine ln
  · exact (h.sendHeldLines ln _).followLine ln

theorem takeLine (h : DriveSteps s₀ s) (ln : CompletedLine) : DriveSteps s₀ (takeLine ln s) := by
  have marked : DriveSteps s₀ (if ln.mark then applyRestartMark s else s) := by
    rw [applyRestartMark_eq]
    split
    · exact h.other
    · exact h
  unfold Machine.takeLine
  dsimp only
  split
  · exact marked
  · exact seekLine marked.other ln
  · exact seekLine marked.other ln
  · exact lockedLine marked.other ln

theorem storeLine (h : DriveSteps s₀ s) (c : CurrentLine) : DriveSteps s₀ (storeLine c s) := by
  have stored : DriveSteps s₀ (s.setScan { s.scan with current := some c }) := h.other
  unfold Machine.storeLine
  dsimp only
  split
  · exact (stored.takeLine _).other
  · exact stored

theorem takeSegment (h : DriveSteps s₀ s) (lane : Fin 4) (line : LineNo) (payload : LanePixels) :
    DriveSteps s₀ (takeSegment lane line payload s) := by
  unfold Machine.takeSegment
  split
  · exact h.other
  · split
    · split
      · exact h.other
      · exact storeLine h.other _
    · split
      · exact h.storeLine _
      · exact storeLine h.other _
      · exact h.other

theorem takeHeader (h : DriveSteps s₀ s) (lane : Fin 4) (header : BitVec 24) (bytes : List Byte) :
    DriveSteps s₀ (takeHeader lane header bytes s) := by
  unfold Machine.takeHeader
  split
  · exact h.other
  · split
    · exact h.other
    · exact h.takeSegment _ _ _

theorem checkSegment (h : DriveSteps s₀ s) (lane : Fin 4) (bytes : List Byte) :
    DriveSteps s₀ (checkSegment lane bytes s) := by
  unfold Machine.checkSegment
  split
  · exact h.takeHeader _ _ _
  · exact takeHeader h.other _ _ _
  · exact h.other

theorem takeBurst (h : DriveSteps s₀ s) (lane : Fin 4) (bytes : List Byte) :
    DriveSteps s₀ (takeBurst lane bytes s) := by
  have emptied : DriveSteps s₀ (s.setScan { s.scan with buffers := s.scan.buffers.set lane [] }) := h.other
  unfold Machine.takeBurst
  dsimp only
  split
  · exact emptied
  · split
    · exact emptied.other
    · split
      · exact emptied.checkSegment lane _
      · exact emptied.other

theorem takeBurstOn (h : DriveSteps s₀ s) (lane : Nat) (bytes : List Byte) :
    DriveSteps s₀ (takeBurstOn lane bytes s) := by
  unfold Machine.takeBurstOn
  split
  · exact h.takeBurst _ bytes
  · exact h

theorem expireLineTimer (h : DriveSteps s₀ s) : DriveSteps s₀ (expireLineTimer s) := by
  unfold Machine.expireLineTimer
  split
  · split
    · unfold reportSilent
      split
      · exact enterLost h.other _ _
      · exact h.other
    · exact h
  · exact h

/-! ### The timers of the keys -/

theorem onKey (h : DriveSteps s₀ s) {f : Key → State → State} (each : ∀ k, DriveSteps s₀ (f k s)) (number : Nat) :
    DriveSteps s₀ (onKey number f s) := by
  unfold Machine.onKey
  split
  · exact each _
  · exact h

theorem expireHeadTimer (h : DriveSteps s₀ s) : DriveSteps s₀ (expireHeadTimer s) := by
  unfold Machine.expireHeadTimer
  split
  · split
    · exact h.examineHead
    · exact h
  · exact h

theorem expireStrike (h : DriveSteps s₀ s) (k : Key) : DriveSteps s₀ (expireStrike k s) := by
  unfold Machine.expireStrike
  split
  · split
    · refine settling ?_ none
      split
      · exact h.missStrike k
      · exact h.endStrike k
    · exact h
  · exact h

theorem endGap (h : DriveSteps s₀ s) (k : Key) : DriveSteps s₀ (endGap k s) := by
  unfold Machine.endGap
  split
  · split
    · exact h.rest k
    · exact h
  · split
    · exact settling (h.enterPending k _ _) _
    · exact h
  · exact h

theorem reachRelease (h : DriveSteps s₀ s) (k : Key) : DriveSteps s₀ (reachRelease k s) := by
  unfold Machine.reachRelease
  split
  · split
    · exact settling (h.rest k) none
    · exact h
  · exact h

/-! ### The steps of expression, heat and pedals -/

theorem stepExpression (h : DriveSteps s₀ s) : DriveSteps s₀ (stepExpression s) := by
  unfold Machine.stepExpression
  split
  · split
    · exact h.other
    · exact h
  · exact h

theorem stepHeat (h : DriveSteps s₀ s) : DriveSteps s₀ (stepHeat s) := by
  unfold Machine.stepHeat
  split
  · rename_i due _
    split
    · have timed : DriveSteps s₀ { s with heat := { s.heat with nextStep := some (timePlus due 1000) } } :=
        h.move (.ease (.of_rest fun _ => .refl _) rfl rfl)
      unfold heatWork
      dsimp only
      split
      · exact (timed.move .heat).reexamineHead
      · exact timed.move .heat
    · exact h
  · exact h

theorem faultPedal (h : DriveSteps s₀ s) (p : Pedal) (start : Time) : DriveSteps s₀ (faultPedal p start s) :=
  (h.setPedal p (Nat.zero_le _)).raise _ _

theorem stepPedal (h : DriveSteps s₀ s) (p : Pedal) : DriveSteps s₀ (stepPedal p s) := by
  rcases stepPedal_spec p s with ⟨-, e⟩ | ⟨-, mode, request, -, e⟩ | ⟨-, -, -, e⟩ <;> rw [e]
  · exact h
  · exact h.move (.pedal rfl)
  · exact h.faultPedal p _

theorem stepServo (h : DriveSteps s₀ s) : DriveSteps s₀ (stepServo s) := by
  unfold Machine.stepServo
  split
  · rename_i due _
    split
    · have timed : DriveSteps s₀ { s with pedals := { s.pedals with nextStep := some (timePlus due 1000) } } :=
        h.other (pedals := fun p => by cases p <;> exact le_rfl)
      have stepped := (timed.stepPedal .sustain).stepPedal .shift
      unfold servoWork
      dsimp only
      split
      · exact stepped.reexamineHead
      · exact stepped
    · exact h
  · exact h

theorem settleTimeout (h : DriveSteps s₀ s) (p : Pedal) : DriveSteps s₀ (settleTimeout p s) := by
  unfold Machine.settleTimeout
  split
  · split
    · exact (h.faultPedal p _).reexamineHead
    · exact h
  · exact h

/-! ### The hammer line -/

theorem applyLearning (h : DriveSteps s₀ s) (k : Key) (v : StrikeValues) (l : Launch) (velocity : Nat) (flight : Int) :
    DriveSteps s₀ (applyLearning k v l velocity flight s) := by
  rcases applyLearning_spec k v l velocity flight s with e | ⟨-, e⟩ <;> rw [e]
  · exact h
  · exact h.other

theorem takeHammer (h : DriveSteps s₀ s) (k : Key) (dt : Nat) (reportTime : Time) :
    DriveSteps s₀ (takeHammer k dt reportTime s) := by
  unfold Machine.takeHammer
  split
  · rename_i v l _ _ _
    split
    · exact h.retireKey k _
    · extract_lets velocity learned
      have kept : DriveSteps s₀ learned := h.applyLearning k v l _ _
      have measured : DriveSteps s₀ (learned.setKey k
          { learned.key k with missCount := 0, lastVelocity := some velocity }) := kept.setKey (.of_same rfl rfl)
      exact measured.endStrike k
  · exact h.other

theorem takeReport (h : DriveSteps s₀ s) (b0 b1 b2 b3 : Byte) : DriveSteps s₀ (takeReport b0 b1 b2 b3 s) := by
  have pedal (p : Pedal) (position : Nat) : DriveSteps s₀ (checkedPedalReport p position s) := by
    unfold checkedPedalReport
    split
    · exact h.other
    · exact h.setPedal p
  unfold Machine.takeReport
  split
  · exact h.other
  · split
    · unfold hammerReport
      split
      · exact (h.takeHammer _ _ _).settling none
      · exact h.other
    · split
      · exact pedal _ _
      · split
        · exact pedal _ _
        · exact h.other

theorem receiveByte (h : DriveSteps s₀ s) (b : Byte) : DriveSteps s₀ (receiveByte b s) := by
  unfold Machine.receiveByte
  split
  · exact h.other
  · split
    · exact h
    · split
      · exact h.other
      · exact h.other
      · exact h.other
      · exact takeReport h.other _ _ _ _
      · exact h.other

theorem completeReport (h : DriveSteps s₀ s) (b : Byte) : DriveSteps s₀ (completeReport b s) := by
  unfold Machine.completeReport
  split
  · exact h.receiveByte b
  · exact h

theorem endBurst (h : DriveSteps s₀ s) : DriveSteps s₀ (endBurst s) := by
  unfold Machine.endBurst
  dsimp only
  split
  · exact h.other
  · split <;> exact h.other

/-! ### The cue player -/

theorem applyOn (h : DriveSteps s₀ s) (key : Key) (cueId : Byte) (level : CueLevel) (time : Time) :
    DriveSteps s₀ (applyOn key cueId level time s) := by
  have opened : DriveSteps s₀ (s.setCue { s.cue with phraseOpen := true }) := h.other
  unfold Machine.applyOn
  dsimp only
  split
  · exact opened.other
  · split
    · exact opened.claim _
    · exact (opened.claim _).other

theorem applyOff (h : DriveSteps s₀ s) (key : Option Key) (cueId : Byte) (time : Time) :
    DriveSteps s₀ (applyOff key cueId time s) := by
  cases key with
  | none => exact (h.closeAll _ _).settling none
  | some k => exact (h.closeKey _ _ _).settling none

theorem cuePedal (h : DriveSteps s₀ s) (p : Pedal) (position : Nat) : DriveSteps s₀ (cuePedal p position s).1 := by
  rcases cuePedal_spec p position s with ⟨-, e⟩ | ⟨-, -, -, e⟩ | ⟨-, e⟩ <;> rw [e]
  · exact h
  · exact h
  · exact h.setPedal p

theorem applyEntry (h : DriveSteps s₀ s) (e : CueEntry) : DriveSteps s₀ (applyEntry e s) := by
  cases e with
  | on key cueId level time => exact h.applyOn key cueId level time
  | off key cueId time => exact h.applyOff key cueId time
  | pedal p position time =>
    have set := h.cuePedal p position
    unfold Machine.applyEntry applyPedal
    dsimp only
    split
    · exact set
    · exact set.other
  | endPhrase time => exact h.other

theorem lowWaterTest (h : DriveSteps s₀ s) : DriveSteps s₀ (lowWaterTest s) := by
  unfold Machine.lowWaterTest
  split
  · exact h.raise _ _
  · exact h

theorem underrunTest (h : DriveSteps s₀ s) : DriveSteps s₀ (underrunTest s) := by
  unfold Machine.underrunTest
  split
  · exact ((h.withdrawSource .cue).settling none).other.raise _ _
  · exact h

theorem applyHead (h : DriveSteps s₀ s) (e : CueEntry) (rest : List CueEntry) : DriveSteps s₀ (applyHead e rest s) :=
  (applyEntry h.other e).lowWaterTest.underrunTest

theorem serviceLoop (h : DriveSteps s₀ s) (n : Nat) : DriveSteps s₀ (serviceLoop n s) := by
  induction n generalizing s with
  | zero => exact h
  | succ n ih =>
    unfold Machine.serviceLoop
    split
    · exact h
    · split
      · exact ih (h.applyHead _ _)
      · exact h

theorem serviceCue (h : DriveSteps s₀ s) : DriveSteps s₀ (serviceCue s) := h.serviceLoop _

/-! ### Resets and the image load -/

/-- The keys and the pedals at their full reset values (R108, R178). -/
theorem reset (h : DriveSteps s₀ s) {s' : State} (keys : s'.keys = Vector.replicate 88 KeyRecord.atReset)
    (sustain : s'.pedals.sustain = PedalRecord.atReset) (shift : s'.pedals.shift = PedalRecord.atReset) :
    DriveSteps s₀ s' :=
  h.move (.silence (fun k => .inl (by rw [State.key, keys, Fin.getElem_fin, Vector.getElem_replicate]; rfl))
    (fun p => by
      cases p with
      | sustain => exact congrArg PedalRecord.drive sustain
      | shift => exact congrArg PedalRecord.drive shift))

theorem completeLoad (h : DriveSteps s₀ s) (acked : Bool) (framed : LaneSet) :
    DriveSteps s₀ (completeLoad acked framed s) := by
  have started (settings : Settings) (voicing : Vector VoicingRecord 88) (outcome : ImageOutcome) :
      DriveSteps s₀ (startBlocks framed settings voicing outcome s) := h.reset rfl rfl rfl
  unfold Machine.completeLoad
  split
  · exact h
  · unfold noticeLoad
    split
    · split
      · exact (started _ _ _).raise _ _
      · exact started _ _ _
    · exact (started _ _ _).raise _ _

theorem performanceReset (h : DriveSteps s₀ s) : DriveSteps s₀ (performanceResetState s) := by
  refine h.move (.silence (fun k => ?_) fun p => by cases p <;> rfl)
  have own : (performanceResetState s).key k = { s.key k with phase := performancePhase (s.key k).phase } := by
    show (mapTable (fun _ r => { r with phase := performancePhase r.phase }) s.keys)[k] = _
    rw [mapTable_get]
    rfl
  rw [own]
  cases (s.key k).phase with
  | retired reason => exact .inr ⟨reason, rfl⟩
  | _ => exact .inl rfl

end DriveSteps

end Sys2Proof.Machine
end

section
/-! The moves of the requests and of a step, and what follows from them for every step: the pool is not overdrawn
(07_drive_power R129) and no hot key is held (R140).
The lemmas are checked one after another: a thread for each would take more memory than the check allows. -/

set_option Elab.async false

namespace Sys2Proof.Machine

theorem State.setPhase_setFlags (s : State) (k : Key) (f : KeyFlags) (p : KeyPhase) :
    (s.setFlags k f).setPhase k p = s.setKey k { s.key k with flags := f, phase := p } := by
  show { s with keys := (s.setFlags k f).keys.set k { (s.setFlags k f).key k with phase := p } } = _
  rw [State.setFlags_setPhase_keys]
  rfl

namespace DriveSteps

variable {s₀ s : State}

/-- A request executed moves as its effect does (R195). -/
theorem serveRequest (h : DriveSteps s₀ s) {act : List Byte → State → Answer}
    (effect : ∀ arguments {u}, DriveSteps s₀ u → DriveSteps s₀ (act arguments u).state) (code : Nat)
    (whileLoading : Bool) : DriveSteps s₀ (serveRequest code whileLoading act s) := by
  have headless : DriveSteps s₀ s.dropHead := h.other
  rcases serveRequest_cases s code whileLoading act with e | ⟨f, -, -, -, -, ⟨-, -, e⟩ | ⟨-, e⟩⟩ <;> rw [e]
  · exact h
  · exact headless.other
  · exact (effect _ headless).other

/-- A request that reads. -/
theorem serveQuery (h : DriveSteps s₀ s) {act : List Byte → State → Answer} (code : Nat) (whileLoading : Bool)
    (reads : ∀ arguments u, ∃ pin, (act arguments u).state = { u with servicePin := pin }) :
    DriveSteps s₀ (Machine.serveRequest code whileLoading act s) :=
  h.serveRequest (fun arguments u kept => by
    obtain ⟨pin, same⟩ := reads arguments u
    rw [same]
    exact kept.other) code whileLoading

/-! ### The key table (R95 to R103) -/

theorem actPlayOpen (h : DriveSteps s₀ s) (arguments : List Byte) : DriveSteps s₀ (actPlayOpen arguments s).state := by
  unfold Machine.actPlayOpen
  split
  · split
    · exact h
    · split
      · exact h
      · unfold openNote
        dsimp only
        split
        · exact h.claim _
        · exact h
        · exact h
        · exact h
  · exact h

theorem actPlayClose (h : DriveSteps s₀ s) (arguments : List Byte) :
    DriveSteps s₀ (actPlayClose arguments s).state := by
  unfold Machine.actPlayClose
  split
  · exact h
  · split
    · unfold closeEvery
      dsimp only [answerOk]
      exact (h.closeAll _ _).settling none
    · split
      · exact h
      · unfold closeOne
        split
        · exact (h.closeKey _ _ _).settling none
        · exact h

theorem actPlayCancel (h : DriveSteps s₀ s) (arguments : List Byte) :
    DriveSteps s₀ (actPlayCancel arguments s).state := by
  unfold Machine.actPlayCancel
  split
  · exact h
  · dsimp only
    split
    · exact (h.cancelNote _).settling none
    · exact h

theorem actAllOff (h : DriveSteps s₀ s) (arguments : List Byte) : DriveSteps s₀ (actAllOff arguments s).state :=
  (h.silenceKeys.settling none).other (pedals := fun p => by cases p <;> exact le_rfl)

/-- QUIET comes only over silenced keys (R100). -/
theorem setQuiet (h : DriveSteps s₀ s) (on : Bool) : DriveSteps s₀ (setQuiet on s) := by
  cases on with
  | true =>
    obtain ⟨keys, status, settled, silenced⟩ := settling_silenceKeys s
    have set : Machine.setQuiet true s = { s with
        keys := keys, queue := { entries := [], status := status }, quiet := true } := by
      show { Machine.settling none Machine.silenceKeys s with quiet := true } = _
      rw [settled]
    rw [set]
    refine h.move (.ease ⟨fun k => ?_, fun _ => .inr fun k => ?_, fun p => by cases p <;> exact le_rfl, rfl⟩ rfl rfl)
    · show Eased (s.key k) keys[k]
      rw [silenced k]
      exact .silenced _ _
    · show normalDuty keys[k].phase = none
      rw [silenced k]
      cases (s.key k).phase <;> rfl
  | false =>
    exact h.move (.ease ⟨fun k => .refl _, nofun, fun p => by cases p <;> exact le_rfl, rfl⟩ rfl rfl)

theorem actQuietSet (h : DriveSteps s₀ s) (arguments : List Byte) : DriveSteps s₀ (actQuietSet arguments s).state := by
  unfold Machine.actQuietSet
  split
  · exact h.setQuiet _
  · exact h

/-- MUTE newly set over a note in play: the note is MUTED with the same event (R99). -/
theorem muteNote (h : DriveSteps s₀ s) (k : Key) (f : KeyFlags) : DriveSteps s₀ (muteNote k (s.setFlags k f)) := by
  have muted {p : KeyPhase} (silent : normalDuty p = none) (held : isHold p = true → isHold (s.key k).phase = true) :
      DriveSteps s₀ ((s.setFlags k f).setPhase k p) := by
    rw [State.setPhase_setFlags]
    exact h.setKey (.of_unlaunched silent held)
  have kept (silent : normalDuty (s.key k).phase = none) : DriveSteps s₀ (s.setFlags k f) :=
    h.setKey (.of_unlaunched silent id)
  have own : ((s.setFlags k f).key k).phase = (s.key k).phase := by rw [State.setFlags, State.key_setKey_same]
  rw [Machine.muteNote, own]
  cases phase : (s.key k).phase with
  | strike n v l sensed e m =>
    dsimp only
    split
    · exact (muted (normalDuty_strike_of_other LaunchMode.noConfusion) nofun).unsenseStrike k
    · rename_i other
      exact kept (by rw [phase]; exact normalDuty_strike_of_other other)
  | hold n v l d start => exact muted (normalDuty_hold_of_other LaunchMode.noConfusion) fun _ => by rw [phase]; rfl
  | _ => exact kept (by rw [phase]; rfl)

theorem amendFlags (h : DriveSteps s₀ s) (k : Key) (setMask clearMask : Byte) :
    DriveSteps s₀ (amendFlags k setMask clearMask s) := by
  refine timeOutIfDue ?_ k
  split
  · exact h.muteNote k _
  · rename_i before
    refine h.setKey ⟨fun d => id, fun muted => .inl (Bool.eq_true_of_not_eq_false fun unmuted => ?_), id⟩
    rw [State.setFlags, State.key_setKey_same, unmuted] at before
    exact before muted

theorem amendLevel (h : DriveSteps s₀ s) (k : Key) (level : Nat) : DriveSteps s₀ (amendLevel k level s) := by
  unfold Machine.amendLevel
  split
  · exact h.enterPending k _ _
  · exact h

theorem amendKey (h : DriveSteps s₀ s) (k : Key) (setMask clearMask : Byte) (level : AmendLevel) :
    DriveSteps s₀ (amendKey k setMask clearMask level s) := by
  have flagged := h.amendFlags k setMask clearMask
  cases level with
  | given level =>
    exact settling (f := fun u => Machine.amendLevel k level (Machine.amendFlags k setMask clearMask u))
      (flagged.amendLevel k level) _
  | keep => exact flagged.settling none
  | bad => exact flagged.settling none

theorem actKeyAmend (h : DriveSteps s₀ s) (arguments : List Byte) : DriveSteps s₀ (actKeyAmend arguments s).state := by
  unfold Machine.actKeyAmend
  dsimp only
  split
  · exact h
  · split
    · exact h
    · split
      · exact h
      · exact h.amendKey _ _ _ _

theorem actKeyRetire (h : DriveSteps s₀ s) (arguments : List Byte) :
    DriveSteps s₀ (actKeyRetire arguments s).state := by
  unfold Machine.actKeyRetire
  split
  · exact h
  · split
    · exact h
    · exact (h.retireKey _ _).settling none

theorem actKeyRestore (h : DriveSteps s₀ s) (arguments : List Byte) :
    DriveSteps s₀ (actKeyRestore arguments s).state := by
  unfold Machine.actKeyRestore
  split
  · exact h
  · split
    · exact h.setKey (.of_silent rfl rfl)
    · exact h

/-! ### The roll, the apertures and the expression unit -/

theorem actRollStart (h : DriveSteps s₀ s) (arguments : List Byte) :
    DriveSteps s₀ (actRollStart arguments s).state := by
  unfold Machine.actRollStart
  split
  · exact h.other
  · exact h

theorem actRollStop (h : DriveSteps s₀ s) (arguments : List Byte) : DriveSteps s₀ (actRollStop arguments s).state := by
  unfold Machine.actRollStop stopRoll
  dsimp only [answerOk]
  split
  · exact h
  · exact h.other
  · exact h.other
  · exact h.departure _

theorem actApertureClose (h : DriveSteps s₀ s) (arguments : List Byte) :
    DriveSteps s₀ (actApertureClose arguments s).state := by
  have blind (c : Channel) : DriveSteps s₀ (blindRecord c s) := h.other
  have closed (c : Channel) (m : Option Mapping) : DriveSteps s₀ (sendClose c m (blindRecord c s)) :=
    (((blind c).sendControl _ _).sendNoteClose _ _).sendPedal _ _
  unfold Machine.actApertureClose
  split
  · unfold closeAperture
    dsimp only [answerOk]
    split
    · exact blind _
    · exact blind _
    · exact closed _ _
    · exact closed _ _
  · exact h

theorem actExprSet (h : DriveSteps s₀ s) (arguments : List Byte) : DriveSteps s₀ (actExprSet arguments s).state := by
  unfold Machine.actExprSet
  split
  · exact h
  · split
    · exact h
    · exact h.setHalf _ _

/-! ### The pedals (R167 to R176) -/

theorem actPedalSet (h : DriveSteps s₀ s) (arguments : List Byte) : DriveSteps s₀ (actPedalSet arguments s).state := by
  unfold Machine.actPedalSet
  split
  · exact h
  · split
    · exact h
    · exact h.cuePedal _ _

theorem actPedalYield (h : DriveSteps s₀ s) (arguments : List Byte) :
    DriveSteps s₀ (actPedalYield arguments s).state := by
  unfold Machine.actPedalYield
  split
  · exact h
  · split
    · exact h
    · split
      · exact h
      · exact h.setPedal _

theorem actPedalClearFault (h : DriveSteps s₀ s) (arguments : List Byte) :
    DriveSteps s₀ (actPedalClearFault arguments s).state := by
  unfold Machine.actPedalClearFault
  split
  · exact h
  · split
    · exact h.setPedal _ (Nat.zero_le _)
    · exact h

/-! ### The source contexts and the cue queue -/

theorem setContext (h : DriveSteps s₀ s) (source : Source) (c : ContextBlock) :
    DriveSteps s₀ (s.setContext source c) := by
  cases source <;> exact h.other

theorem actContextWrite (h : DriveSteps s₀ s) (arguments : List Byte) :
    DriveSteps s₀ (actContextWrite arguments s).state := by
  unfold Machine.actContextWrite
  split
  · rename_i source c _ _
    have written := h.setContext source c
    unfold contextChange
    dsimp only [answerOk]
    split
    · exact (written.withdrawSource source).settling none
    · split
      · exact (written.silenceOutside source _ _).settling none
      · exact written
  · exact h

theorem actCuePush (h : DriveSteps s₀ s) (arguments : List Byte) : DriveSteps s₀ (actCuePush arguments s).state := by
  unfold Machine.actCuePush
  extract_lets pushed state
  dsimp only
  split
  · exact serviceCue h.other
  · exact h.other

/-! ### The settings, the voicing table and the image -/

theorem settingEffect (h : DriveSteps s₀ s) (x : Setting) (v : Nat) : DriveSteps s₀ (settingEffect x v s) := by
  have unsensed : DriveSteps s₀ (unsenseAll s) := by
    refine h.foldl_keys (fun k t kept => ?_) allKeys
    unfold unsenseIfSensed
    split
    · exact kept.unsenseStrike k
    · exact kept
  have timedOut : DriveSteps s₀ (timeOutDue s) := h.foldl_keys (fun k _ kept => kept.timeOutIfDue k) allKeys
  unfold Machine.settingEffect
  split
  · split
    · exact h.other
    · exact h
  · exact timedOut.settling none
  · split
    · exact unsensed.settling none
    · exact h
  · exact h.reexamineHead
  · exact h.serviceCue
  · exact h.serviceCue
  · split
    · exact h.other
    · exact h

theorem actConfigWrite (h : DriveSteps s₀ s) (pin : Bool) (arguments : List Byte) :
    DriveSteps s₀ (actConfigWrite pin arguments s).state := by
  have sampled : DriveSteps s₀ { s with servicePin := pin } := h.other
  unfold Machine.actConfigWrite
  dsimp only
  split
  · exact sampled
  · rename_i x _
    split
    · exact sampled
    · rcases writeSetting_spec x (arg32 arguments 1) { s with servicePin := pin } with
        ⟨r, -, e⟩ | ⟨-, -, free, -, e⟩ <;> rw [e]
      · exact sampled
      · refine settingEffect (sampled.move (.setting fun capacity => ?_)) x _
        subst capacity
        exact Nat.le_of_not_lt (of_decide_eq_false free)

theorem actVoiceWrite (h : DriveSteps s₀ s) (arguments : List Byte) :
    DriveSteps s₀ (actVoiceWrite arguments s).state := by
  unfold Machine.actVoiceWrite
  split
  · exact h
  · split
    · exact h
    · split
      · exact h.other
      · exact h

theorem failCommit (h : DriveSteps s₀ s) (wordReached : Nat) : DriveSteps s₀ (failCommit wordReached s) :=
  h.other.raise _ _

theorem actVoiceCommit (h : DriveSteps s₀ s) (pin acked : Bool) (arguments : List Byte) :
    DriveSteps s₀ (actVoiceCommit pin acked arguments s).state := by
  unfold Machine.actVoiceCommit
  dsimp only
  split
  · exact h.other
  · split
    · exact h.other
    · unfold beginCommit
      dsimp only [answerOk]
      split
      · exact h.other
      · exact failCommit h.other 0

theorem completePage (h : DriveSteps s₀ s) (acked : Bool) : DriveSteps s₀ (completePage acked s) := by
  unfold Machine.completePage
  split
  · exact h
  · unfold nextPage
    split
    · exact h.other.raise _ _
    · split
      · exact h.other
      · exact failCommit h.other _

theorem timeOutCommit (h : DriveSteps s₀ s) : DriveSteps s₀ (timeOutCommit s) := by
  unfold Machine.timeOutCommit
  split
  · exact h
  · split
    · exact h.failCommit _
    · exact h

/-! ### The port (R193 to R199) -/

theorem readRise (h : DriveSteps s₀ s) (clocked : Nat) : DriveSteps s₀ (readRise clocked s) := by
  unfold Machine.readRise
  split
  · exact h.other
  · split <;> exact h.other

theorem readTransaction (h : DriveSteps s₀ s) (phase : ReadPhase) : DriveSteps s₀ (readTransaction phase s) := by
  cases phase with
  | fall => exact h.other
  | rise clocked => exact h.readRise clocked
  | whole clocked =>
    have fell : DriveSteps s₀ (readFall s) := h.other
    exact fell.readRise clocked

theorem writeTransaction (h : DriveSteps s₀ s) (bytes : List Byte) : DriveSteps s₀ (writeTransaction bytes s) := by
  unfold Machine.writeTransaction
  split
  · exact h.other
  · split
    · exact h
    · split
      · exact h
      · unfold offerFrame
        split <;> exact h.other

theorem serveBadRequest (h : DriveSteps s₀ s) : DriveSteps s₀ (serveBadRequest s) := by
  unfold Machine.serveBadRequest
  split
  · exact h
  · split
    · exact h
    · exact h.other

end DriveSteps

/-! ### The step -/

/-- Every command is a run of moves. -/
theorem exec_driveSteps {s s' : State} (c : Instr) (run : exec c s = .next s') : DriveSteps s s' := by
  have came := DriveSteps.arrive s
  have query {code : Nat} {whileLoading : Bool} {act : List Byte → State → Answer} {t : Time} :=
    (came t).serveQuery (act := act) code whileLoading
  cases c <;> obtain rfl := Host.Outcome.next.inj run
  case fullReset lines => exact (DriveSteps.refl s).reset rfl rfl rfl
  case imageLoadComplete t acked framed => exact (came t).completeLoad acked framed
  case segmentArrival t lane bytes => exact (came t).takeBurstOn lane bytes
  case lineTimerExpiry t => exact (came t).expireLineTimer
  case strikeQueueHeadTimer t => exact (came t).expireHeadTimer
  case strikeEndTimerExpiry t number => exact (came t).onKey (came t).expireStrike number
  case gapEnd t number => exact (came t).onKey (came t).endGap number
  case releaseTime t number => exact (came t).onKey (came t).reachRelease number
  case expressionStep t => exact (came t).stepExpression
  case heatStep t => exact (came t).stepHeat
  case pedalStep t => exact (came t).stepServo
  case pedalFault t p => exact (came t).settleTimeout p
  case pedalEventDue t p => exact (came t).setPedal p
  case hubReport t b => exact (came t).completeReport b
  case hubBurstEnd t => exact (came t).endBurst
  case hubByteReceived t b => exact (came t).receiveByte b
  case cueEntryDue t => exact (came t).serviceCue
  case spiWriteTransaction t bytes => exact (came t).writeTransaction bytes
  case spiReadTransaction t phase => exact (came t).readTransaction phase
  case badRequest t => exact (came t).serveBadRequest
  case commitPageWritten t acked => exact (came t).completePage acked
  case commitAckTimeout t => exact (came t).timeOutCommit
  case status t pin => exact query fun _ _ => ⟨pin, rfl⟩
  case timeRead t => exact query fun _ u => ⟨u.servicePin, rfl⟩
  case configRead t => exact query fun _ u => ⟨u.servicePin, by unfold actConfigRead; split <;> rfl⟩
  case rollQuery t => exact query fun _ u => ⟨u.servicePin, rfl⟩
  case apertureQuery t => exact query fun _ u => ⟨u.servicePin, by unfold actApertureQuery; split <;> rfl⟩
  case exprQuery t => exact query fun _ u => ⟨u.servicePin, by unfold actExprQuery; split <;> rfl⟩
  case keyQuery t => exact query fun _ u => ⟨u.servicePin, by unfold actKeyQuery; split <;> rfl⟩
  case pedalQuery t => exact query fun _ u => ⟨u.servicePin, by unfold actPedalQuery; split <;> rfl⟩
  case contextRead t => exact query fun _ u => ⟨u.servicePin, by unfold actContextRead; split <;> rfl⟩
  case cueQuery t => exact query fun _ u => ⟨u.servicePin, rfl⟩
  case voiceRead t => exact query fun _ u => ⟨u.servicePin, by unfold actVoiceRead; split <;> rfl⟩
  case configWrite t pin => exact (came t).serveRequest (fun x _ kept => kept.actConfigWrite pin x) _ _
  case performanceReset t => exact (came t).serveRequest (fun _ _ kept => kept.performanceReset) _ _
  case rollStart t => exact (came t).serveRequest (fun x _ kept => kept.actRollStart x) _ _
  case rollStop t => exact (came t).serveRequest (fun x _ kept => kept.actRollStop x) _ _
  case apertureClose t => exact (came t).serveRequest (fun x _ kept => kept.actApertureClose x) _ _
  case exprSet t => exact (came t).serveRequest (fun x _ kept => kept.actExprSet x) _ _
  case playOpen t => exact (came t).serveRequest (fun x _ kept => kept.actPlayOpen x) _ _
  case playClose t => exact (came t).serveRequest (fun x _ kept => kept.actPlayClose x) _ _
  case playCancel t => exact (came t).serveRequest (fun x _ kept => kept.actPlayCancel x) _ _
  case allOff t => exact (came t).serveRequest (fun x _ kept => kept.actAllOff x) _ _
  case quietSet t => exact (came t).serveRequest (fun x _ kept => kept.actQuietSet x) _ _
  case keyAmend t => exact (came t).serveRequest (fun x _ kept => kept.actKeyAmend x) _ _
  case keyRetire t => exact (came t).serveRequest (fun x _ kept => kept.actKeyRetire x) _ _
  case keyRestore t => exact (came t).serveRequest (fun x _ kept => kept.actKeyRestore x) _ _
  case pedalSet t => exact (came t).serveRequest (fun x _ kept => kept.actPedalSet x) _ _
  case pedalYield t => exact (came t).serveRequest (fun x _ kept => kept.actPedalYield x) _ _
  case pedalClearFault t => exact (came t).serveRequest (fun x _ kept => kept.actPedalClearFault x) _ _
  case contextWrite t => exact (came t).serveRequest (fun x _ kept => kept.actContextWrite x) _ _
  case cuePush t => exact (came t).serveRequest (fun x _ kept => kept.actCuePush x) _ _
  case cueFlush t => exact (came t).serveRequest (fun _ _ kept => kept.other) _ _
  case voiceWrite t => exact (came t).serveRequest (fun x _ kept => kept.actVoiceWrite x) _ _
  case voiceCommit t pin acked => exact (came t).serveRequest (fun x _ kept => kept.actVoiceCommit pin acked x) _ _

/-- Every step is a run of moves. -/
theorem step_driveSteps {s s' : State} (run : step s = .next s') : DriveSteps s s' := by
  unfold step at run
  split at run
  · obtain rfl := Host.Outcome.next.inj run
    obtain ⟨port, served⟩ := idle_frame s
    rw [served]
    exact (DriveSteps.refl s).other
  · rename_i c rest _
    have taken : DriveSteps s { s with pending := rest } := (DriveSteps.refl s).other
    exact Relation.ReflTransGen.trans taken (exec_driveSteps c run)

/-- Settles O10: no move of a step overdraws the pool or leaves a silenced note NORMAL. -/
theorem poolNeverOverdrawn : Obligations.PoolNeverOverdrawn :=
  fun _ _ safe run => (step_driveSteps run).keeps PoolSafe.of_driveStep safe

/-- Settles O11: no move of a step leaves a key in HOLD at or above HEAT_MAX. -/
theorem noHotKeyHeld : Obligations.NoHotKeyHeld :=
  fun _ _ safe run => (step_driveSteps run).keeps HeatSafe.of_driveStep safe

end Sys2Proof.Machine
end

section
/-! What learning makes of a voicing record: the corrected breakpoints, the order restored, and the ranges of R152
kept (08_hammer_sensing R152, R154 to R157). -/

namespace Sys2Proof.Machine

/-! ### The order of a curve (R152) -/

theorem curveOrdered_iff {keeps : Nat → Nat → Bool} {curve : Vector Nat 8} :
    curveOrdered keeps curve = true ↔ ∀ i : Fin 7, keeps curve[i.castSucc] curve[i.succ] = true := by
  simp [curveOrdered]

/-- A test of every value of a curve, place by place. -/
theorem all_toList_iff {test : Nat → Bool} {curve : Vector Nat 8} :
    curve.toList.all test = true ↔ ∀ j : Fin 8, test curve[j] = true := by
  rw [List.all_eq_true]
  refine ⟨fun every j => every _ (by simp), fun every d listed => ?_⟩
  obtain ⟨j, bound, rfl⟩ := List.mem_iff_getElem.mp listed
  exact every ⟨j, by simpa using bound⟩

/-- The ranges and the order of R152. -/
structure VoicingRecord.Fits (r : VoicingRecord) : Prop where
  duties : ∀ j : Fin 8, r.duties[j] ≤ 1023
  flights : ∀ j : Fin 8, r.flights[j] ≤ 4000
  holdDuty : r.holdDuty ≤ 511
  softTrim : -255 ≤ r.softTrim ∧ r.softTrim ≤ 255
  repeatGap : 10 ≤ r.repeatGap ∧ r.repeatGap ≤ 200
  dutiesRise : ∀ i : Fin 7, r.duties[i.castSucc] ≤ r.duties[i.succ]
  flightsFall : ∀ i : Fin 7, r.flights[i.succ] ≤ r.flights[i.castSucc]

theorem VoicingRecord.valid_iff {r : VoicingRecord} : r.valid = true ↔ r.Fits := by
  simp only [valid, Bool.and_eq_true, all_toList_iff, curveOrdered_iff, decide_eq_true_eq]
  constructor
  · rintro ⟨⟨⟨⟨⟨⟨duties, flights⟩, holdDuty⟩, softTrim⟩, repeatGap⟩, dutiesRise⟩, flightsFall⟩
    exact ⟨duties, flights, holdDuty, softTrim, repeatGap, dutiesRise, flightsFall⟩
  · rintro ⟨duties, flights, holdDuty, softTrim, repeatGap, dutiesRise, flightsFall⟩
    exact ⟨⟨⟨⟨⟨⟨duties, flights⟩, holdDuty⟩, softTrim⟩, repeatGap⟩, dutiesRise⟩, flightsFall⟩

theorem VoicingRecord.factory_valid : VoicingRecord.factory.valid = true := by decide

/-! ### Two breakpoints corrected (R155, R157) -/

section
variable {hi gain f : Nat} {error : Int} {i : Fin 7} {curve : Vector Nat 8}

theorem correctCurve_low : (correctCurve hi error gain i f curve)[i.castSucc] =
    clampNat hi ((curve[i.castSucc] : Int) + learnIncrement error gain (256 - f)) := by
  simp [correctCurve, Fin.getElem_fin]

theorem correctCurve_high : (correctCurve hi error gain i f curve)[i.succ] =
    clampNat hi ((curve[i.succ] : Int) + learnIncrement error gain f) := by
  simp [correctCurve, Fin.getElem_fin]

theorem correctCurve_other {j : Fin 8} (notLow : j ≠ i.castSucc) (notHigh : j ≠ i.succ) :
    (correctCurve hi error gain i f curve)[j] = curve[j] := by
  have low : (i : Nat) ≠ j := fun same => notLow (Fin.ext same.symm)
  have high : (i : Nat) + 1 ≠ j := fun same => notHigh (Fin.ext same.symm)
  simp [correctCurve, Fin.getElem_fin, low, high]

theorem clampNat_le (hi : Nat) (n : Int) : clampNat hi n ≤ hi := Nat.min_le_left _ _

theorem correctCurve_le (bounded : ∀ j : Fin 8, curve[j] ≤ hi) (j : Fin 8) :
    (correctCurve hi error gain i f curve)[j] ≤ hi := by
  by_cases low : j = i.castSucc
  · rw [low, correctCurve_low]
    exact clampNat_le _ _
  · by_cases high : j = i.succ
    · rw [high, correctCurve_high]
      exact clampNat_le _ _
    · rw [correctCurve_other low high]
      exact bounded j

end

/-! ### The order restored (R155, R157) -/

section
variable {keep : Nat → Nat → Nat} {curve : Vector Nat 8}

/-- The pass upward, written out. -/
theorem restoreOrder_values (keep : Nat → Nat → Nat) (c0 c1 c2 c3 c4 c5 c6 c7 : Nat) :
    restoreOrder keep #v[c0, c1, c2, c3, c4, c5, c6, c7] =
      let r1 := keep c1 c0
      let r2 := keep c2 r1
      let r3 := keep c3 r2
      let r4 := keep c4 r3
      let r5 := keep c5 r4
      let r6 := keep c6 r5
      #v[c0, r1, r2, r3, r4, r5, r6, keep c7 r6] := rfl

theorem curve_values (curve : Vector Nat 8) : curve =
    #v[curve[0], curve[1], curve[2], curve[3], curve[4], curve[5], curve[6], curve[7]] := by
  ext j bound
  interval_cases j <;> rfl

theorem restoreOrder_zero : (restoreOrder keep curve)[(0 : Fin 8)] = curve[(0 : Fin 8)] := by
  rw [curve_values curve, restoreOrder_values]
  rfl

theorem restoreOrder_succ (j : Fin 7) :
    (restoreOrder keep curve)[j.succ] = keep curve[j.succ] (restoreOrder keep curve)[j.castSucc] := by
  rw [curve_values curve, restoreOrder_values]
  fin_cases j <;> rfl

theorem restoreOrder_le {hi : Nat} (kept : ∀ a b, a ≤ hi → b ≤ hi → keep a b ≤ hi)
    (bounded : ∀ j : Fin 8, curve[j] ≤ hi) (j : Fin 8) : (restoreOrder keep curve)[j] ≤ hi := by
  induction j using Fin.induction with
  | zero => rw [restoreOrder_zero]; exact bounded 0
  | succ j ih => rw [restoreOrder_succ]; exact kept _ _ (bounded _) ih

theorem le_restoreOrder_max (i : Fin 7) :
    (restoreOrder max curve)[i.castSucc] ≤ (restoreOrder max curve)[i.succ] := by
  rw [restoreOrder_succ i]
  exact Nat.le_max_right _ _

theorem restoreOrder_min_le (i : Fin 7) :
    (restoreOrder min curve)[i.succ] ≤ (restoreOrder min curve)[i.castSucc] := by
  rw [restoreOrder_succ i]
  exact Nat.min_le_right _ _

end

/-! ### A learning update (R155 to R157) -/

section
variable {error : Int} {gain : Nat} {v : StrikeValues} {r : VoicingRecord}

theorem VoicingRecord.Fits.learnDuty (h : r.Fits) : (learnDuty error gain v r).Fits where
  duties := restoreOrder_le (fun _ _ => Nat.max_le_of_le_of_le) (correctCurve_le h.duties)
  flights := h.flights
  holdDuty := h.holdDuty
  softTrim := h.softTrim
  repeatGap := h.repeatGap
  dutiesRise := le_restoreOrder_max
  flightsFall := h.flightsFall

theorem VoicingRecord.Fits.learnTrim (h : r.Fits) : (learnTrim error gain r).Fits where
  duties := h.duties
  flights := h.flights
  holdDuty := h.holdDuty
  softTrim := by
    dsimp only [Machine.learnTrim, clampInt]
    omega
  repeatGap := h.repeatGap
  dutiesRise := h.dutiesRise
  flightsFall := h.flightsFall

theorem VoicingRecord.Fits.learnFlight (h : r.Fits) : (learnFlight error gain v r).Fits where
  duties := h.duties
  flights := restoreOrder_le (fun _ b small _ => (Nat.min_le_left _ b).trans small) (correctCurve_le h.flights)
  holdDuty := h.holdDuty
  softTrim := h.softTrim
  repeatGap := h.repeatGap
  dutiesRise := h.dutiesRise
  flightsFall := restoreOrder_min_le

theorem VoicingRecord.Fits.learnDrive (h : r.Fits) : (learnDrive error gain v r).Fits := by
  unfold Machine.learnDrive
  split
  · exact h.learnDuty
  · split
    · exact h.learnTrim
    · exact h

/-- Learning keeps the ranges and the order of a record (R152). -/
theorem learnRecord_valid {s : State} {velocity : Nat} {flight : Int} (valid : r.valid = true) :
    (learnRecord s velocity flight v r).valid = true :=
  VoicingRecord.valid_iff.mpr (VoicingRecord.valid_iff.mp valid).learnDrive.learnFlight

end

end Sys2Proof.Machine
end

section
/-! Which commands write the voicing table, and why none breaks the order of a record (08_hammer_sensing R152, R153,
R161; 11_host_port R200 to R205).
The lemmas are checked one after another: a thread for each would take more memory than the check allows. -/

set_option Elab.async false

namespace Sys2Proof.Machine

/-! ### Keys and the strike queue -/

section
variable (s : State)

@[simp] theorem examineHead_voicing : (examineHead s).voicing = s.voicing := by
  obtain ⟨keys, queue, e, -⟩ := examineHead_spec s
  rw [e]

@[simp] theorem reexamineHead_voicing : (reexamineHead s).voicing = s.voicing := by
  rcases reexamineHead_spec s with e | e <;> rw [e]
  exact examineHead_voicing s

@[simp] theorem settling_voicing (placed : Option Key) (f : State → State) :
    (settling placed f s).voicing = (f s).voicing := by
  rcases settling_spec placed f s with e | e <;> rw [e]
  exact examineHead_voicing _

/-- An event on one key after another keeps the table when each does. -/
theorem foldl_keys_voicing {f : Key → State → State} (each : ∀ k u, (f k u).voicing = u.voicing) (keys : List Key) :
    (keys.foldl (fun t k => f k t) s).voicing = s.voicing := by
  induction keys generalizing s with
  | nil => rfl
  | cons k keys ih => exact (ih (f k s)).trans (each k s)

@[simp] theorem claim_voicing (c : Claim) : (claim c s).1.voicing = s.voicing := (RollFrame.claim c s).voicing

@[simp] theorem closeKey_voicing (o : Owner) (release : Time) (k : Key) :
    (closeKey o release k s).voicing = s.voicing := (RollFrame.closeKey o release k s).voicing

@[simp] theorem closeAll_voicing (o : Owner) (release : Time) : (closeAll o release s).voicing = s.voicing :=
  foldl_keys_voicing s (fun k u => closeKey_voicing u o release k) allKeys

@[simp] theorem enterPending_voicing (k : Key) (n : Note) (v : StrikeValues) :
    (enterPending k n v s).voicing = s.voicing := rfl

@[simp] theorem placeNote_voicing (k : Key) (n : Note) : (placeNote k n s).voicing = s.voicing := rfl

theorem updatePhases_voicing (f : Key → KeyRecord → KeyPhase) : (updatePhases f s).voicing = s.voicing := by
  rw [updatePhases_frame]

@[simp] theorem withdrawSource_voicing (source : Source) : (withdrawSource source s).voicing = s.voicing :=
  updatePhases_voicing s _

@[simp] theorem silenceKeys_voicing : (silenceKeys s).voicing = s.voicing := updatePhases_voicing s _

@[simp] theorem silenceOutside_voicing (source : Source) (low high : Nat) :
    (silenceOutside source low high s).voicing = s.voicing := updatePhases_voicing s _

@[simp] theorem cancelNote_voicing (k : Key) : (cancelNote k s).voicing = s.voicing := rfl

@[simp] theorem retireKey_voicing (k : Key) (reason : RetireReason) : (retireKey k reason s).voicing = s.voicing :=
  (KeyFrame.retireKey reason s).voicing

@[simp] theorem endStrike_voicing (k : Key) : (endStrike k s).voicing = s.voicing := (KeyFrame.endStrike s).voicing

@[simp] theorem missStrike_voicing (k : Key) : (missStrike k s).voicing = s.voicing := by
  unfold missStrike
  dsimp only
  split <;> simp

@[simp] theorem unsenseStrike_voicing (k : Key) : (unsenseStrike k s).voicing = s.voicing := by
  unfold unsenseStrike
  split
  · dsimp only
    split <;> simp
  · rfl

@[simp] theorem timeOutKey_voicing (k : Key) : (timeOutKey k s).voicing = s.voicing := by
  obtain ⟨keys, port, e, -⟩ := timeOutKey_frame k s
  rw [e]

@[simp] theorem timeOutIfDue_voicing (k : Key) : (timeOutIfDue k s).voicing = s.voicing := by
  unfold timeOutIfDue
  split
  · split <;> simp
  · rfl

/-! ### The scan receiver and the tracker -/

theorem storeLine_voicing (c : CurrentLine) : (storeLine c s).voicing = s.voicing := by
  unfold storeLine
  dsimp only
  split
  · exact (RollFrame.takeLine _ (s.setScan _)).voicing
  · rfl

theorem takeSegment_voicing (lane : Fin 4) (line : LineNo) (payload : LanePixels) :
    (takeSegment lane line payload s).voicing = s.voicing := by
  unfold takeSegment
  split
  · rfl
  · split
    · split
      · rfl
      · exact storeLine_voicing _ _
    · split
      · exact storeLine_voicing _ _
      · exact storeLine_voicing _ _
      · rfl

theorem takeHeader_voicing (lane : Fin 4) (header : BitVec 24) (bytes : List Byte) :
    (takeHeader lane header bytes s).voicing = s.voicing := by
  unfold takeHeader
  split
  · rfl
  · split
    · rfl
    · exact takeSegment_voicing _ _ _ _

theorem checkSegment_voicing (lane : Fin 4) (bytes : List Byte) : (checkSegment lane bytes s).voicing = s.voicing := by
  unfold checkSegment
  split
  · exact takeHeader_voicing _ _ _ _
  · exact takeHeader_voicing (countCorrected s) _ _ _
  · rfl

theorem takeBurstOn_voicing (lane : Nat) (bytes : List Byte) : (takeBurstOn lane bytes s).voicing = s.voicing := by
  unfold takeBurstOn
  split
  · unfold takeBurst
    dsimp only
    split
    · rfl
    · split
      · rfl
      · split
        · exact checkSegment_voicing (s.setScan _) _ _
        · rfl
  · rfl

theorem expireLineTimer_voicing : (expireLineTimer s).voicing = s.voicing := by
  unfold expireLineTimer
  split
  · split
    · unfold reportSilent
      split
      · exact (RollFrame.enterLost _ _ (stopLineTimer s)).voicing
      · rfl
    · rfl
  · rfl

/-! ### The timers of the keys -/

theorem onKey_voicing {f : Key → State → State} (each : ∀ k, (f k s).voicing = s.voicing) (number : Nat) :
    (onKey number f s).voicing = s.voicing := by
  unfold onKey
  split
  · exact each _
  · rfl

theorem expireHeadTimer_voicing : (expireHeadTimer s).voicing = s.voicing := by
  unfold expireHeadTimer
  split
  · split <;> simp
  · rfl

theorem expireStrike_voicing (k : Key) : (expireStrike k s).voicing = s.voicing := by
  unfold expireStrike
  split
  · split
    · rw [settling_voicing]
      split <;> simp
    · rfl
  · rfl

theorem endGap_voicing (k : Key) : (endGap k s).voicing = s.voicing := by
  unfold endGap
  split
  · split <;> rfl
  · split <;> simp
  · rfl

theorem reachRelease_voicing (k : Key) : (reachRelease k s).voicing = s.voicing := by
  unfold reachRelease
  split
  · split
    · exact settling_voicing s none (dampKey k)
    · rfl
  · rfl

/-! ### The steps of expression, heat and pedals -/

theorem stepExpression_voicing : (stepExpression s).voicing = s.voicing := by
  unfold stepExpression
  split
  · split <;> rfl
  · rfl

theorem heatKeys_voicing : (heatKeys s).voicing = s.voicing := by
  obtain ⟨_, _, _, e⟩ : HeatFrame s (heatKeys s) := .heatSome allKeys s
  rw [e]

theorem stepHeat_voicing : (stepHeat s).voicing = s.voicing := by
  unfold stepHeat
  split
  · split
    · unfold heatWork
      dsimp only
      split
      · rw [reexamineHead_voicing, heatKeys_voicing]
        rfl
      · rw [heatKeys_voicing]
        rfl
    · rfl
  · rfl

@[simp] theorem faultPedal_voicing (p : Pedal) (start : Time) : (faultPedal p start s).voicing = s.voicing := by
  simp [faultPedal]

@[simp] theorem stepPedal_voicing (p : Pedal) : (stepPedal p s).voicing = s.voicing := by
  rcases stepPedal_spec p s with ⟨-, e⟩ | ⟨-, mode, request, -, e⟩ | ⟨-, -, -, e⟩ <;> rw [e]
  · exact s.setPedal_voicing p _
  · exact faultPedal_voicing s p _

theorem stepServo_voicing : (stepServo s).voicing = s.voicing := by
  unfold stepServo servoWork
  split
  · split
    · dsimp only
      split <;> simp
    · rfl
  · rfl

theorem settleTimeout_voicing (p : Pedal) : (settleTimeout p s).voicing = s.voicing := by
  unfold settleTimeout
  split
  · split <;> simp
  · rfl

theorem endBurst_voicing : (endBurst s).voicing = s.voicing := by
  unfold endBurst
  dsimp only
  split
  · rfl
  · split <;> rfl

/-! ### The cue player -/

@[simp] theorem cuePedal_voicing (p : Pedal) (position : Nat) : (cuePedal p position s).1.voicing = s.voicing := by
  rcases cuePedal_spec p position s with ⟨-, e⟩ | ⟨-, -, -, e⟩ | ⟨-, e⟩ <;> rw [e]
  exact s.setPedal_voicing p _

theorem applyOn_voicing (key : Key) (cueId : Byte) (level : CueLevel) (time : Time) :
    (applyOn key cueId level time s).voicing = s.voicing := by
  unfold applyOn
  dsimp only
  split
  · rfl
  · split <;> simp [countDropped]

@[simp] theorem applyEntry_voicing (e : CueEntry) : (applyEntry e s).voicing = s.voicing := by
  cases e with
  | on key cueId level time => exact applyOn_voicing s key cueId level time
  | off key cueId time => cases key <;> simp [applyEntry, applyOff]
  | pedal p position time =>
    unfold applyEntry applyPedal
    dsimp only
    split <;> simp [countDropped]
  | endPhrase time => rfl

@[simp] theorem lowWaterTest_voicing : (lowWaterTest s).voicing = s.voicing := by
  unfold lowWaterTest
  split <;> simp

@[simp] theorem underrunTest_voicing : (underrunTest s).voicing = s.voicing := by
  unfold underrunTest
  split <;> simp

theorem serviceLoop_voicing (n : Nat) : (serviceLoop n s).voicing = s.voicing := by
  induction n generalizing s with
  | zero => rfl
  | succ n ih =>
    unfold serviceLoop
    split
    · rfl
    · split
      · rw [ih]
        simp [applyHead]
      · rfl

@[simp] theorem serviceCue_voicing : (serviceCue s).voicing = s.voicing := serviceLoop_voicing s _

/-! ### The key table (R95 to R103) -/

theorem actPlayOpen_voicing (arguments : List Byte) : (actPlayOpen arguments s).state.voicing = s.voicing := by
  unfold actPlayOpen
  split
  · split
    · rfl
    · split
      · rfl
      · unfold openNote
        dsimp only
        split
        · exact claim_voicing s _
        all_goals rfl
  · rfl

theorem actPlayClose_voicing (arguments : List Byte) : (actPlayClose arguments s).state.voicing = s.voicing := by
  unfold actPlayClose
  split
  · rfl
  · split
    · simp [closeEvery, answerOk]
    · split
      · rfl
      · unfold closeOne
        split
        · simp [answerOk]
        · rfl

theorem actPlayCancel_voicing (arguments : List Byte) : (actPlayCancel arguments s).state.voicing = s.voicing := by
  unfold actPlayCancel
  split
  · rfl
  · dsimp only
    split
    · simp [answerOk]
    · rfl

theorem actAllOff_voicing (arguments : List Byte) : (actAllOff arguments s).state.voicing = s.voicing :=
  (settling_voicing s none silenceKeys).trans (silenceKeys_voicing s)

theorem actQuietSet_voicing (arguments : List Byte) : (actQuietSet arguments s).state.voicing = s.voicing := by
  unfold actQuietSet
  split
  · rename_i on _
    cases on with
    | true => exact (settling_voicing s none silenceKeys).trans (silenceKeys_voicing s)
    | false => rfl
  · rfl

@[simp] theorem muteNote_voicing (k : Key) : (muteNote k s).voicing = s.voicing := by
  unfold muteNote
  split
  · split <;> simp
  · rfl
  · rfl

@[simp] theorem amendFlags_voicing (k : Key) (setMask clearMask : Byte) :
    (amendFlags k setMask clearMask s).voicing = s.voicing := by
  unfold amendFlags
  dsimp only
  rw [timeOutIfDue_voicing]
  split
  · rw [muteNote_voicing]
    rfl
  · rfl

@[simp] theorem amendLevel_voicing (k : Key) (level : Nat) : (amendLevel k level s).voicing = s.voicing := by
  unfold amendLevel
  split <;> rfl

theorem amendKey_voicing (k : Key) (setMask clearMask : Byte) (level : AmendLevel) :
    (amendKey k setMask clearMask level s).voicing = s.voicing := by
  cases level <;> simp [amendKey]

theorem actKeyAmend_voicing (arguments : List Byte) : (actKeyAmend arguments s).state.voicing = s.voicing := by
  unfold actKeyAmend
  dsimp only
  split
  · rfl
  · split
    · rfl
    · split
      · rfl
      · exact amendKey_voicing s _ _ _ _

theorem actKeyRetire_voicing (arguments : List Byte) : (actKeyRetire arguments s).state.voicing = s.voicing := by
  unfold actKeyRetire
  split
  · rfl
  · split
    · rfl
    · simp [answerOk]

theorem actKeyRestore_voicing (arguments : List Byte) : (actKeyRestore arguments s).state.voicing = s.voicing := by
  unfold actKeyRestore
  split
  · rfl
  · split <;> rfl

/-! ### The roll, the apertures and the expression unit -/

theorem actRollStart_voicing (arguments : List Byte) : (actRollStart arguments s).state.voicing = s.voicing := by
  unfold actRollStart
  split <;> rfl

theorem actRollStop_voicing (arguments : List Byte) : (actRollStop arguments s).state.voicing = s.voicing := by
  unfold actRollStop stopRoll
  dsimp only [answerOk]
  split
  · rfl
  · rfl
  · rfl
  · exact (RollFrame.rollWithdrawal (emptyApertures (s.setTracker s.tracker.stop))).voicing

theorem actApertureClose_voicing (arguments : List Byte) :
    (actApertureClose arguments s).state.voicing = s.voicing := by
  have closed (c : Channel) (m : Option Mapping) : (sendClose c m (blindRecord c s)).voicing = s.voicing :=
    (((RollFrame.sendControl c _ (blindRecord c s)).trans (.sendNoteClose c _ _)).trans
      (.sendPedal c _ _)).voicing
  unfold actApertureClose
  split
  · unfold closeAperture
    dsimp only [answerOk]
    split
    · rfl
    · rfl
    · exact closed _ _
    · exact closed _ _
  · rfl

theorem actExprSet_voicing (arguments : List Byte) : (actExprSet arguments s).state.voicing = s.voicing := by
  unfold actExprSet
  split
  · rfl
  · split
    · rfl
    · exact s.setHalf_voicing _ _

/-! ### The pedals (R167 to R176) -/

theorem actPedalSet_voicing (arguments : List Byte) : (actPedalSet arguments s).state.voicing = s.voicing := by
  unfold actPedalSet
  split
  · rfl
  · split
    · rfl
    · exact cuePedal_voicing s _ _

theorem actPedalYield_voicing (arguments : List Byte) : (actPedalYield arguments s).state.voicing = s.voicing := by
  unfold actPedalYield
  split
  · rfl
  · split
    · rfl
    · split
      · rfl
      · exact s.setPedal_voicing _ _

theorem actPedalClearFault_voicing (arguments : List Byte) :
    (actPedalClearFault arguments s).state.voicing = s.voicing := by
  unfold actPedalClearFault
  split
  · rfl
  · split
    · exact s.setPedal_voicing _ _
    · rfl

/-! ### The source contexts and the cue queue -/

theorem actContextWrite_voicing (arguments : List Byte) : (actContextWrite arguments s).state.voicing = s.voicing := by
  unfold actContextWrite
  split
  · unfold contextChange
    dsimp only [answerOk]
    split
    · simp
    · split <;> simp
  · rfl

theorem actCuePush_voicing (arguments : List Byte) : (actCuePush arguments s).state.voicing = s.voicing := by
  unfold actCuePush
  dsimp only
  split <;> simp

/-! ### The settings and the commit -/

theorem settingEffect_voicing (x : Setting) (v : Nat) : (settingEffect x v s).voicing = s.voicing := by
  have unsensed : (unsenseAll s).voicing = s.voicing := foldl_keys_voicing s (fun k u => by
    unfold unsenseIfSensed
    split <;> simp) allKeys
  have timedOut : (timeOutDue s).voicing = s.voicing :=
    foldl_keys_voicing s (fun k u => timeOutIfDue_voicing u k) allKeys
  unfold settingEffect
  split
  · split <;> rfl
  · rw [settling_voicing, timedOut]
  · split
    · rw [settling_voicing, unsensed]
    · rfl
  · exact reexamineHead_voicing s
  · exact serviceCue_voicing s
  · exact serviceCue_voicing s
  · split <;> rfl

theorem actConfigWrite_voicing (pin : Bool) (arguments : List Byte) :
    (actConfigWrite pin arguments s).state.voicing = s.voicing := by
  unfold actConfigWrite
  dsimp only
  split
  · rfl
  · rename_i x _
    split
    · rfl
    · rcases writeSetting_spec x (arg32 arguments 1) { s with servicePin := pin } with ⟨r, -, e⟩ | ⟨-, -, -, -, e⟩ <;>
        rw [e]
      · rfl
      · exact settingEffect_voicing _ x _

@[simp] theorem failCommit_voicing (wordReached : Nat) : (failCommit wordReached s).voicing = s.voicing := by
  simp [failCommit]

theorem actVoiceCommit_voicing (pin acked : Bool) (arguments : List Byte) :
    (actVoiceCommit pin acked arguments s).state.voicing = s.voicing := by
  unfold actVoiceCommit
  dsimp only
  split
  · rfl
  · split
    · rfl
    · unfold beginCommit
      dsimp only [answerOk]
      split
      · rfl
      · exact failCommit_voicing (readPin pin s) 0

theorem completePage_voicing (acked : Bool) : (completePage acked s).voicing = s.voicing := by
  unfold completePage nextPage
  split
  · rfl
  · split
    · simp [finishCommit]
    · split <;> simp

theorem timeOutCommit_voicing : (timeOutCommit s).voicing = s.voicing := by
  unfold timeOutCommit
  split
  · rfl
  · split <;> simp

/-! ### The port (R193 to R199) -/

theorem readRise_voicing (clocked : Nat) : (readRise clocked s).voicing = s.voicing := by
  unfold readRise
  split
  · rfl
  · split <;> rfl

theorem readTransaction_voicing (phase : ReadPhase) : (readTransaction phase s).voicing = s.voicing := by
  cases phase with
  | fall => rfl
  | rise clocked => exact readRise_voicing s clocked
  | whole clocked => exact readRise_voicing (readFall s) clocked

theorem writeTransaction_voicing (bytes : List Byte) : (writeTransaction bytes s).voicing = s.voicing := by
  unfold writeTransaction
  split
  · rfl
  · split
    · rfl
    · split
      · rfl
      · unfold offerFrame
        split <;> rfl

theorem serveBadRequest_voicing : (serveBadRequest s).voicing = s.voicing := by
  unfold serveBadRequest
  split
  · rfl
  · split <;> rfl

/-- A request executed keeps the table when its effect does (R195). -/
theorem serveRequest_voicing {act : List Byte → State → Answer}
    (effect : ∀ arguments u, (act arguments u).state.voicing = u.voicing) (code : Nat) (whileLoading : Bool) :
    (serveRequest code whileLoading act s).voicing = s.voicing := by
  rcases serveRequest_cases s code whileLoading act with e | ⟨f, -, -, -, -, ⟨-, -, e⟩ | ⟨-, e⟩⟩ <;> rw [e]
  · rfl
  · exact effect _ s.dropHead

end

/-! ### The commands that leave the table alone -/

/-- The commands that write the voicing table: hammer reports, VOICE_WRITE, the load and the full reset (R153). -/
def writesVoicing : Instr → Bool
  | .fullReset _ => true
  | .imageLoadComplete _ _ _ => true
  | .voiceWrite _ => true
  | .hubReport _ _ => true
  | .hubByteReceived _ _ => true
  | _ => false

/-- Every other command leaves the table as it is. -/
theorem exec_voicing {s s' : State} (c : Instr) (other : writesVoicing c = false) (run : exec c s = .next s') :
    s'.voicing = s.voicing := by
  have came := s.arrive_voicing
  have served {code : Nat} {whileLoading : Bool} {act : List Byte → State → Answer} {t : Time}
      (effect : ∀ arguments u, (act arguments u).state.voicing = u.voicing) :
      (serveRequest code whileLoading act (s.arrive t)).voicing = s.voicing :=
    (serveRequest_voicing _ effect code whileLoading).trans (came t)
  cases c <;> obtain rfl := Host.Outcome.next.inj run
  case fullReset | imageLoadComplete | voiceWrite | hubReport | hubByteReceived => cases other
  case segmentArrival t lane bytes => exact (takeBurstOn_voicing _ lane bytes).trans (came t)
  case lineTimerExpiry t => exact (expireLineTimer_voicing _).trans (came t)
  case strikeQueueHeadTimer t => exact (expireHeadTimer_voicing _).trans (came t)
  case strikeEndTimerExpiry t number => exact (onKey_voicing _ (expireStrike_voicing _) number).trans (came t)
  case gapEnd t number => exact (onKey_voicing _ (endGap_voicing _) number).trans (came t)
  case releaseTime t number => exact (onKey_voicing _ (reachRelease_voicing _) number).trans (came t)
  case expressionStep t => exact (stepExpression_voicing _).trans (came t)
  case heatStep t => exact (stepHeat_voicing _).trans (came t)
  case pedalStep t => exact (stepServo_voicing _).trans (came t)
  case pedalFault t p => exact (settleTimeout_voicing _ p).trans (came t)
  case pedalEventDue t p => exact (State.setPedal_voicing _ p _).trans (came t)
  case hubBurstEnd t => exact (endBurst_voicing _).trans (came t)
  case cueEntryDue t => exact (serviceCue_voicing _).trans (came t)
  case spiWriteTransaction t bytes => exact (writeTransaction_voicing _ bytes).trans (came t)
  case spiReadTransaction t phase => exact (readTransaction_voicing _ phase).trans (came t)
  case badRequest t => exact (serveBadRequest_voicing _).trans (came t)
  case commitPageWritten t acked => exact (completePage_voicing _ acked).trans (came t)
  case commitAckTimeout t => exact (timeOutCommit_voicing _).trans (came t)
  case status t pin => exact served fun _ _ => rfl
  case timeRead t => exact served fun _ _ => rfl
  case configRead t => exact served fun _ _ => by unfold actConfigRead; split <;> rfl
  case rollQuery t => exact served fun _ _ => rfl
  case apertureQuery t => exact served fun _ _ => by unfold actApertureQuery; split <;> rfl
  case exprQuery t => exact served fun _ _ => by unfold actExprQuery; split <;> rfl
  case keyQuery t => exact served fun _ _ => by unfold actKeyQuery; split <;> rfl
  case pedalQuery t => exact served fun _ _ => by unfold actPedalQuery; split <;> rfl
  case contextRead t => exact served fun _ _ => by unfold actContextRead; split <;> rfl
  case cueQuery t => exact served fun _ _ => rfl
  case voiceRead t => exact served fun _ _ => by unfold actVoiceRead; split <;> rfl
  case configWrite t pin => exact served fun x u => actConfigWrite_voicing u pin x
  case performanceReset t => exact served fun _ _ => rfl
  case rollStart t => exact served fun x u => actRollStart_voicing u x
  case rollStop t => exact served fun x u => actRollStop_voicing u x
  case apertureClose t => exact served fun x u => actApertureClose_voicing u x
  case exprSet t => exact served fun x u => actExprSet_voicing u x
  case playOpen t => exact served fun x u => actPlayOpen_voicing u x
  case playClose t => exact served fun x u => actPlayClose_voicing u x
  case playCancel t => exact served fun x u => actPlayCancel_voicing u x
  case allOff t => exact served fun x u => actAllOff_voicing u x
  case quietSet t => exact served fun x u => actQuietSet_voicing u x
  case keyAmend t => exact served fun x u => actKeyAmend_voicing u x
  case keyRetire t => exact served fun x u => actKeyRetire_voicing u x
  case keyRestore t => exact served fun x u => actKeyRestore_voicing u x
  case pedalSet t => exact served fun x u => actPedalSet_voicing u x
  case pedalYield t => exact served fun x u => actPedalYield_voicing u x
  case pedalClearFault t => exact served fun x u => actPedalClearFault_voicing u x
  case contextWrite t => exact served fun x u => actContextWrite_voicing u x
  case cuePush t => exact served fun x u => actCuePush_voicing u x
  case cueFlush t => exact served fun _ _ => rfl
  case voiceCommit t pin acked => exact served fun x u => actVoiceCommit_voicing u pin acked x

/-! ### The commands that write it -/

/-- A record read from an image is one that passes the test, or the factory record (R201). -/
theorem loadedRecord_valid (m : List Host.Cell) (k : Nat) : (loadedRecord m k).valid = true := by
  unfold loadedRecord
  dsimp only
  split
  · rename_i fit
    exact fit.1
  · exact VoicingRecord.factory_valid

namespace VoicingSafe

variable {s s' : State}

theorem same (h : VoicingSafe s) (voicing : s'.voicing = s.voicing) : VoicingSafe s' := fun k => by
  rw [State.voice, voicing]
  exact h k

theorem setVoice (h : VoicingSafe s) (k : Key) {r : VoicingRecord} (valid : r.valid = true) :
    VoicingSafe (s.setVoice k r) := fun j => by
  rw [State.voice_setVoice]
  split
  · exact valid
  · exact h j

/-- Every key with the factory record (R152). -/
theorem of_factory (voicing : s.voicing = Vector.replicate 88 VoicingRecord.factory) : VoicingSafe s := fun k => by
  rw [State.voice, voicing, Fin.getElem_fin, Vector.getElem_replicate]
  exact VoicingRecord.factory_valid

theorem arrive (h : VoicingSafe s) (t : Time) : VoicingSafe (s.arrive t) := h.same (s.arrive_voicing t)

theorem applyLearning (h : VoicingSafe s) (k : Key) (v : StrikeValues) (l : Launch) (velocity : Nat) (flight : Int) :
    VoicingSafe (applyLearning k v l velocity flight s) := by
  rcases applyLearning_spec k v l velocity flight s with e | ⟨-, e⟩ <;> rw [e]
  · exact h
  · exact h.setVoice k (learnRecord_valid (h k))

theorem takeHammer (h : VoicingSafe s) (k : Key) (dt : Nat) (reportTime : Time) :
    VoicingSafe (takeHammer k dt reportTime s) := by
  unfold Machine.takeHammer
  split
  · rename_i v l _ _ _
    split
    · exact h.same (retireKey_voicing s k _)
    · exact (h.applyLearning k v l _ _).same (endStrike_voicing _ k)
  · exact h

theorem takeReport (h : VoicingSafe s) (b0 b1 b2 b3 : Byte) : VoicingSafe (takeReport b0 b1 b2 b3 s) := by
  have pedal (p : Pedal) (position : Nat) : VoicingSafe (checkedPedalReport p position s) := by
    unfold checkedPedalReport
    split
    · exact h
    · exact h.same (s.setPedal_voicing p _)
  unfold Machine.takeReport
  split
  · exact h
  · split
    · unfold hammerReport
      split
      · exact (h.takeHammer _ _ _).same (settling_voicing s none _)
      · exact h
    · split
      · exact pedal _ _
      · split
        · exact pedal _ _
        · exact h

theorem receiveByte (h : VoicingSafe s) (b : Byte) : VoicingSafe (receiveByte b s) := by
  have kept (p : HammerPort) : VoicingSafe (s.setHub p) := h
  unfold Machine.receiveByte
  split
  · exact kept _
  · split
    · exact h
    · split
      · exact kept _
      · exact kept _
      · exact kept _
      · exact (kept _).takeReport _ _ _ _
      · exact kept _

theorem completeReport (h : VoicingSafe s) (b : Byte) : VoicingSafe (completeReport b s) := by
  unfold Machine.completeReport
  split
  · exact h.receiveByte b
  · exact h

theorem actVoiceWrite (h : VoicingSafe s) (arguments : List Byte) : VoicingSafe (actVoiceWrite arguments s).state := by
  unfold Machine.actVoiceWrite
  split
  · exact h
  · split
    · exact h
    · split
      · rename_i valid
        exact h.setVoice _ valid
      · exact h

theorem serveVoiceWrite (h : VoicingSafe s) :
    VoicingSafe (serveRequest 0x2B false Machine.actVoiceWrite s) := by
  have headless : VoicingSafe s.dropHead := h
  rcases serveRequest_cases s 0x2B false Machine.actVoiceWrite with e | ⟨f, -, -, -, -, ⟨-, -, e⟩ | ⟨-, e⟩⟩ <;> rw [e]
  · exact h
  · exact headless
  · exact headless.actVoiceWrite _

theorem startBlocks (framed : LaneSet) (settings : Settings) (acked : Bool) (m : List Host.Cell)
    (outcome : ImageOutcome) (s : State) : VoicingSafe (startBlocks framed settings (voicingAfterLoad acked m) outcome s) := by
  unfold voicingAfterLoad
  split
  · unfold loadedVoicing
    split
    · intro k
      show ((mapTable (fun k _ => loadedRecord m k.val) (Vector.replicate 88 VoicingRecord.factory))[k]).valid = true
      rw [mapTable_get]
      exact loadedRecord_valid m k
    · exact of_factory rfl
  · exact of_factory rfl

theorem completeLoad (h : VoicingSafe s) (acked : Bool) (framed : LaneSet) :
    VoicingSafe (completeLoad acked framed s) := by
  have started := startBlocks framed (settingsAfterLoad acked s.loader.eeprom) acked s.loader.eeprom
    (loadOutcome acked s.loader.eeprom) s
  unfold Machine.completeLoad
  split
  · exact h
  · unfold noticeLoad
    split
    · split
      · exact started.same (State.raise_voicing _ _ _)
      · exact started
    · exact started.same (State.raise_voicing _ _ _)

theorem exec (h : VoicingSafe s) (c : Instr) (run : exec c s = .next s') : VoicingSafe s' := by
  by_cases other : writesVoicing c = false
  · exact h.same (exec_voicing c other run)
  · cases c
    case fullReset lines =>
      obtain rfl := Host.Outcome.next.inj run
      exact of_factory rfl
    case imageLoadComplete t acked framed =>
      obtain rfl := Host.Outcome.next.inj run
      exact (h.arrive t).completeLoad acked framed
    case voiceWrite t =>
      obtain rfl := Host.Outcome.next.inj run
      exact (h.arrive t).serveVoiceWrite
    case hubReport t b =>
      obtain rfl := Host.Outcome.next.inj run
      exact (h.arrive t).completeReport b
    case hubByteReceived t b =>
      obtain rfl := Host.Outcome.next.inj run
      exact (h.arrive t).receiveByte b
    all_goals exact absurd rfl other

end VoicingSafe

/-- Settles O13: most commands leave the table alone; learning keeps the ranges and the order of R152, and what
VOICE_WRITE and the load write has been tested. -/
theorem voicingKeepsOrder : Obligations.VoicingKeepsOrder := by
  intro s s' h run
  unfold step at run
  split at run
  · obtain rfl := Host.Outcome.next.inj run
    obtain ⟨port, served⟩ := idle_frame s
    rw [served]
    exact h
  · rename_i c rest _
    have taken : VoicingSafe { s with pending := rest } := h
    exact taken.exec c run

end Sys2Proof.Machine
end

section
/-! The hammer line: its bytes and bursts, the reports of pedals and hammers, and what a hammer report ends and
teaches (08_hammer_sensing R144 to R157). -/

namespace Sys2Proof.Machine

/-! ### Bytes and the end of a burst (R144) -/

section
variable {s : State} {b : Byte}

theorem receiveByte_of_few (ready : s.loader.ready = true) (heeded : s.hub.ignoring = false)
    (few : s.hub.burst.length < 3) : receiveByte b s = s.setHub { s.hub with burst := s.hub.burst ++ [b] } := by
  rcases burst : s.hub.burst with _ | ⟨b0, _ | ⟨b1, _ | ⟨b2, rest⟩⟩⟩
  case cons.cons.cons =>
    rw [burst] at few
    exact absurd few (by simp)
  all_goals
    rw [receiveByte, ready, heeded, burst]
    rfl

theorem receiveByte_of_full (ready : s.loader.ready = true) (heeded : s.hub.ignoring = false)
    (full : 4 ≤ s.hub.burst.length) : receiveByte b s = s.setHub { s.hub with extra := true } := by
  rcases burst : s.hub.burst with _ | ⟨b0, _ | ⟨b1, _ | ⟨b2, _ | ⟨b3, rest⟩⟩⟩⟩
  case cons.cons.cons.cons =>
    rw [receiveByte, ready, heeded, burst]
    rfl
  all_goals
    rw [burst] at full
    exact absurd full (by simp)

theorem endBurst_of_heeded (heeded : s.hub.ignoring = false) : endBurst s = s.setHub { s.hub with
    burst := [], overrun := false, extra := false
    discarded := if 0 < s.hub.burst.length ∧ (s.hub.burst.length < 4 ∨ s.hub.extra = true)
      then min 65535 (s.hub.discarded + 1) else s.hub.discarded } := by
  unfold endBurst
  simp only [heeded, Bool.false_or, Bool.or_eq_true, decide_eq_true_eq, List.isEmpty_iff_length_eq_zero]
  by_cases none : s.hub.burst.length = 0
  · simp [none]
  · have some : 0 < s.hub.burst.length := Nat.pos_of_ne_zero none
    by_cases bad : s.hub.burst.length < 4 ∨ s.hub.extra = true
    · simp only [none, some, bad, if_true, if_false, and_self]
      rfl
    · simp only [none, bad, if_false, and_false]

end

/-! ### A report (R144, R145) -/

section
variable {s a : State} {t : Time} {b0 b1 b2 b3 : Byte}

/-- The state with the fourth byte of a burst taken. -/
def reported (b0 b1 b2 b3 : Byte) (s : State) : State :=
  s.setHub { s.hub with burst := [b0, b1, b2, b3], overrun := true }

/-- The fourth byte of a burst completes a report. -/
theorem exec_hubReport (arrived : s.arrive t = a) (ready : a.loader.ready = true) (heeded : a.hub.ignoring = false)
    (burst : a.hub.burst = [b0, b1, b2]) : exec (.hubReport t b3) s =
      .next (takeReport b0 b1 b2 b3 (reported b0 b1 b2 b3 a)) := by
  show Host.Outcome.next (completeReport b3 (s.arrive t)) = _
  rw [arrived, completeReport, if_pos (by rw [burst]; rfl), receiveByte, ready, heeded, burst]
  rfl

theorem takeReport_of_bad (bad : b3 ≠ b0 ^^^ b1 ^^^ b2) : takeReport b0 b1 b2 b3 s = countHubDiscarded s := if_pos bad

theorem valueOf_pair (b1 b2 : Byte) : valueOf [b1, b2] = b1.toNat * 256 + b2.toNat := by
  simp [valueOf]

/-- The byte that begins a pedal's reports (R145). -/
def pedalCode : Pedal → Byte
  | .sustain => 0xF1
  | .shift => 0xF2

theorem takeReport_of_pedal (p : Pedal) (good : b3 = pedalCode p ^^^ b1 ^^^ b2) :
    takeReport (pedalCode p) b1 b2 b3 s = checkedPedalReport p (b1.toNat * 256 + b2.toNat) s := by
  rw [takeReport, if_neg (not_not.mpr good), valueOf_pair]
  cases p <;> rfl

theorem takeReport_of_key (k : Key) (good : b3 = byteOf (keyNumber k) ^^^ b1 ^^^ b2) :
    takeReport (byteOf (keyNumber k)) b1 b2 b3 s = hammerReport k (b1.toNat * 256 + b2.toNat) s := by
  rw [takeReport, if_neg (not_not.mpr good), valueOf_pair, byteOf_keyNumber, keyOfNumber_keyNumber]

end

/-- Settles O50: the gathering of bytes, the end of a burst, and the two outcomes of a pedal's report. -/
theorem hubBytesAndPedalReports : Obligations.HubBytesAndPedalReports := by
  refine ⟨fun s a t b arrived ready heeded => ⟨fun few => ?gathered, fun full => ?noted, ?ended⟩,
    fun s a t p b0 b1 b2 b3 arrived ready heeded burst code => ?report⟩
  case gathered =>
    show Host.Outcome.next (receiveByte b (s.arrive t)) = _
    rw [arrived, receiveByte_of_few ready heeded few]
    rfl
  case noted =>
    show Host.Outcome.next (receiveByte b (s.arrive t)) = _
    rw [arrived, receiveByte_of_full ready heeded full]
    rfl
  case ended =>
    show Host.Outcome.next (endBurst (s.arrive t)) = _
    rw [arrived, endBurst_of_heeded heeded]
    rfl
  case report =>
    have own : b0 = pedalCode p := code.trans (by cases p <;> rfl)
    subst own
    rw [exec_hubReport arrived ready heeded burst]
    refine ⟨fun good low => ?stored, fun faulty => ?counted⟩
    case stored =>
      rw [takeReport_of_pedal p good, checkedPedalReport, if_neg (Nat.not_lt.mpr low)]
      cases p <;> rfl
    case counted =>
      by_cases good : b3 = pedalCode p ^^^ b1 ^^^ b2
      · have high : 1023 < b1.toNat * 256 + b2.toNat := faulty.resolve_left (not_not.mpr good)
        rw [takeReport_of_pedal p good, checkedPedalReport, if_pos high]
        rfl
      · rw [takeReport_of_bad good]
        rfl

/-! ### The end of a strike by its hammer (R147 to R149) -/

section
variable {k : Key} {n : Note} {v : StrikeValues} {l : Launch} {sensed : Bool} {e : Time} {m : Option Note}
  {s : State} {dt : Nat} {reportTime : Time}

/-- A strike that ends leaves its key waiting, damped or held, and the rest of its record. -/
theorem endStrike_key_spec (strike : (s.key k).phase = .strike n v l sensed e m) :
    ∃ p, phaseNumber p ≠ 2 ∧ isRetired p = false ∧ isPending p = false ∧
      (endStrike k s).key k = { s.key k with phase := p } := by
  have phased : ∀ p, (s.setPhase k p).key k = { s.key k with phase := p } := s.key_setPhase_same k
  cases m with
  | some x => exact ⟨.waiting _ _, nofun, rfl, rfl, by rw [endStrike_of_successor strike, phased]⟩
  | none =>
    cases due : releaseDue s n with
    | true => exact ⟨.damp _, nofun, rfl, rfl, by rw [endStrike_of_released strike due, phased]⟩
    | false =>
      rcases Nat.lt_or_ge (s.heatOf k) s.heat.max with cool | hot
      · exact ⟨.hold _ _ _ _ _, nofun, rfl, rfl, by rw [endStrike_of_cool strike due cool, phased]⟩
      · exact ⟨.damp _, nofun, rfl, rfl, by rw [endStrike_of_hot strike due hot, raiseThermal, State.raise_key, phased]⟩

/-- The state from which a strike ends by its hammer: learned from, with the miss count 0 and the measured
velocity (R148, R154). -/
def hammered (k : Key) (v : StrikeValues) (l : Launch) (dt : Nat) (reportTime : Time) (s : State) : State :=
  (applyLearning k v l (measuredVelocity (s.setting .gateDist) dt) (measuredFlight reportTime l) s).setKey k
    { s.key k with missCount := 0, lastVelocity := some (measuredVelocity (s.setting .gateDist) dt) }

/-- Learning writes the voicing table alone. -/
theorem applyLearning_eq (k : Key) (v : StrikeValues) (l : Launch) (velocity : Nat) (flight : Int) (s : State) :
    ∃ voicing, applyLearning k v l velocity flight s = { s with voicing := voicing } := by
  rcases applyLearning_spec k v l velocity flight s with same | ⟨-, learned⟩
  · exact ⟨s.voicing, same⟩
  · exact ⟨_, learned⟩

theorem takeHammer_of_sensed (strike : (s.key k).phase = .strike n v l true e m)
    (onTime : 0 ≤ clockDiff reportTime l.actual) :
    takeHammer k dt reportTime s = endStrike k (hammered k v l dt reportTime s) := by
  obtain ⟨voicing, learned⟩ :=
    applyLearning_eq k v l (measuredVelocity (s.setting .gateDist) dt) (measuredFlight reportTime l) s
  rw [takeHammer, strike, hammered]
  dsimp only
  rw [if_neg (Int.not_lt.mpr onTime), learned]
  rfl

theorem takeHammer_of_early (strike : (s.key k).phase = .strike n v l true e m)
    (early : clockDiff reportTime l.actual < 0) : takeHammer k dt reportTime s = retireKey k .fault s := by
  rw [takeHammer, strike]
  exact if_pos early

theorem takeHammer_of_unexpected (unexpected : sensedOf (s.key k).phase ≠ some true) :
    takeHammer k dt reportTime s = countUnexpected s := by
  unfold takeHammer
  split
  · rename_i strike
    rw [strike] at unexpected
    exact absurd rfl unexpected
  · rfl

/-- A strike ended by its hammer touches its key beside what learning writes (R148). -/
theorem takeHammer_frame_of_sensed (strike : (s.key k).phase = .strike n v l true e m)
    (onTime : 0 ≤ clockDiff reportTime l.actual) :
    KeyFrame k (applyLearning k v l (measuredVelocity (s.setting .gateDist) dt) (measuredFlight reportTime l) s)
      (takeHammer k dt reportTime s) := by
  rw [takeHammer_of_sensed strike onTime]
  exact (KeyFrame.setKey _ _).trans (.endStrike _)

/-- The key's record after a strike ended by its hammer. -/
theorem takeHammer_key_of_sensed (strike : (s.key k).phase = .strike n v l true e m)
    (onTime : 0 ≤ clockDiff reportTime l.actual) :
    ∃ p, phaseNumber p ≠ 2 ∧ isRetired p = false ∧ isPending p = false ∧ (takeHammer k dt reportTime s).key k =
      { s.key k with
        phase := p, missCount := 0, lastVelocity := some (measuredVelocity (s.setting .gateDist) dt) } := by
  have own : (hammered k v l dt reportTime s).key k = { s.key k with
      missCount := 0, lastVelocity := some (measuredVelocity (s.setting .gateDist) dt) } := State.key_setKey_same _ k _
  have playing : ((hammered k v l dt reportTime s).key k).phase = .strike n v l true e m := by
    rw [own]
    exact strike
  obtain ⟨p, struck, retired, pending, ended⟩ := endStrike_key_spec playing
  refine ⟨p, struck, retired, pending, ?_⟩
  rw [takeHammer_of_sensed strike onTime, ended, own]

/-- A hammer report touches its key, the voicing table, the strike queue, the port and one counter. -/
theorem takeHammer_frame (k : Key) (dt : Nat) (reportTime : Time) (s : State) :
    ∃ voicing unexpected, KeyFrame k { s with
      voicing := voicing
      hub := { s.hub with unexpected := unexpected } } (takeHammer k dt reportTime s) := by
  by_cases sensed : sensedOf (s.key k).phase = some true
  · cases strike : (s.key k).phase with
    | strike n v l isSensed e m =>
      rw [strike] at sensed
      obtain rfl : isSensed = true := Option.some.inj sensed
      rcases lt_or_ge (clockDiff reportTime l.actual) 0 with early | onTime
      · refine ⟨s.voicing, s.hub.unexpected, ?_⟩
        rw [takeHammer_of_early strike early]
        exact .retireKey _ s
      · obtain ⟨voicing, learned⟩ :=
          applyLearning_eq k v l (measuredVelocity (s.setting .gateDist) dt) (measuredFlight reportTime l) s
        exact ⟨voicing, s.hub.unexpected, learned ▸ takeHammer_frame_of_sensed strike onTime⟩
    | _ => rw [strike] at sensed; cases sensed
  · refine ⟨s.voicing, bump s.hub.unexpected, ?_⟩
    rw [takeHammer_of_unexpected sensed]
    exact .refl _

end

/-- The one examination after an event, on top of the event. -/
theorem KeyFrame.of_settling (k : Key) (placed : Option Key) (f : State → State) (s : State) :
    KeyFrame k (f s) (Machine.settling placed f s) := by
  refine ⟨fun j _ still => settling_key placed f s still, ?_⟩
  obtain ⟨keys, queue, e, -⟩ := settling_frame placed f s
  exact ⟨keys, queue, _, e⟩

/-! ### Learning from a report (R154) -/

section
variable {k : Key} {v : StrikeValues} {l : Launch} {s : State} {velocity : Nat} {flight : Int}

theorem learningApplies_iff : learningApplies s k l = true ↔ s.setting .learn = 1 ∧
    (s.key k).flags.learnExclude = false ∧ l.mode = .normal ∧ s.loader.commit = none := by
  simp [learningApplies, and_assoc]

theorem applyLearning_of_learning (applies : learningApplies s k l = true) :
    applyLearning k v l velocity flight s = s.setVoice k (learnRecord s velocity flight v (s.voice k)) := if_pos applies

theorem applyLearning_of_other (other : s.setting .learn ≠ 1 ∨ (s.key k).flags.learnExclude = true ∨
    l.mode ≠ .normal ∨ s.loader.commit.isSome = true) : applyLearning k v l velocity flight s = s := by
  refine if_neg fun applies => ?_
  obtain ⟨on, heeded, normal, idle⟩ := learningApplies_iff.mp applies
  rcases other with off | excluded | launched | committing
  · exact off on
  · rw [heeded] at excluded
    cases excluded
  · exact launched normal
  · rw [idle] at committing
    cases committing

theorem applyLearning_voice_ne {j : Key} (foreign : j ≠ k) :
    (applyLearning k v l velocity flight s).voice j = s.voice j := by
  rcases applyLearning_spec k v l velocity flight s with same | ⟨-, learned⟩
  · rw [same]
  · rw [learned, State.voice_setVoice, if_neg (Ne.symm foreign)]

end

/-! ### A plausible report (R146 to R149) -/

/-- The report time of a hammer report that comes now (R146). -/
def reportTimeNow (s : State) : Time := timePlus s.clock (-(s.setting .hubLatency : Int))

section
variable {k : Key} {n : Note} {v : StrikeValues} {l : Launch} {e : Time} {m : Option Note} {s : State} {dt : Nat}
  (plausible : 250 ≤ dt ∧ dt ≤ 50000)
include plausible

theorem hammerReport_of_plausible :
    hammerReport k dt s = settling none (takeHammer k dt (reportTimeNow s)) s := if_pos plausible

theorem hammerReport_frame : ∃ voicing unexpected, KeyFrame k { s with
    voicing := voicing
    hub := { s.hub with unexpected := unexpected } } (hammerReport k dt s) := by
  obtain ⟨voicing, unexpected, frame⟩ := takeHammer_frame k dt (reportTimeNow s) s
  rw [hammerReport_of_plausible plausible]
  exact ⟨voicing, unexpected, frame.trans (.of_settling k none _ s)⟩

theorem hammerReport_counters : (hammerReport k dt s).hub.discarded = s.hub.discarded ∧
    (hammerReport k dt s).hub.implausible = s.hub.implausible := by
  obtain ⟨voicing, unexpected, frame⟩ := hammerReport_frame (k := k) (s := s) plausible
  rw [frame.hub]
  exact ⟨rfl, rfl⟩

theorem hammerReport_key_ne {j : Key} (foreign : j ≠ k) (still : isPending (s.key j).phase = false) :
    (hammerReport k dt s).key j = s.key j := by
  obtain ⟨voicing, unexpected, frame⟩ := hammerReport_frame (k := k) (s := s) plausible
  exact frame.others j foreign still

theorem hammerReport_of_unexpected (unexpected : sensedOf (s.key k).phase ≠ some true)
    (quiet : s.queue.status ≠ .waiting) : hammerReport k dt s = countUnexpected s := by
  have counted : takeHammer k dt (reportTimeNow s) s = countUnexpected s := takeHammer_of_unexpected unexpected
  rw [hammerReport_of_plausible plausible, settling_of_same_queue (by rw [counted]; rfl) quiet, counted]

/-- A report of a time before the launch retires the key (R149). -/
theorem hammerReport_of_early (strike : (s.key k).phase = .strike n v l true e m)
    (early : clockDiff (reportTimeNow s) l.actual < 0) : (hammerReport k dt s).hub = s.hub ∧
      (hammerReport k dt s).voicing = s.voicing ∧
      (hammerReport k dt s).key k = { s.key k with phase := .retired .fault } := by
  have taken : takeHammer k dt (reportTimeNow s) s = retireKey k .fault s := takeHammer_of_early strike early
  have retired : (retireKey k .fault s).key k = { s.key k with phase := .retired .fault } := by
    rw [retireKey_key, if_pos rfl]
  have frame := KeyFrame.of_settling k none (takeHammer k dt (reportTimeNow s)) s
  have own := settling_key none (takeHammer k dt (reportTimeNow s)) s (j := k) (by rw [taken, retired]; rfl)
  rw [taken] at frame own
  rw [hammerReport_of_plausible plausible]
  exact ⟨frame.hub.trans (KeyFrame.retireKey .fault s).hub, frame.voicing.trans (retireKey_voicing s k .fault),
    own.trans retired⟩

/-- Any other report of a sensed strike ends it, and writes the table as learning does (R148, R154). -/
theorem hammerReport_of_sensed (strike : (s.key k).phase = .strike n v l true e m)
    (onTime : 0 ≤ clockDiff (reportTimeNow s) l.actual) :
    (hammerReport k dt s).hub = s.hub ∧
      (hammerReport k dt s).voicing = (applyLearning k v l (measuredVelocity (s.setting .gateDist) dt)
        (measuredFlight (reportTimeNow s) l) s).voicing ∧
      ∃ p, phaseNumber p ≠ 2 ∧ isRetired p = false ∧ (hammerReport k dt s).key k = { s.key k with
        phase := p, missCount := 0, lastVelocity := some (measuredVelocity (s.setting .gateDist) dt) } := by
  have frame := (takeHammer_frame_of_sensed (dt := dt) strike onTime).trans
    (.of_settling k none (takeHammer k dt (reportTimeNow s)) s)
  obtain ⟨voicing, learned⟩ :=
    applyLearning_eq k v l (measuredVelocity (s.setting .gateDist) dt) (measuredFlight (reportTimeNow s) l) s
  obtain ⟨p, struck, retired, pending, ended⟩ := takeHammer_key_of_sensed (dt := dt) strike onTime
  have own := settling_key none (takeHammer k dt (reportTimeNow s)) s (j := k) (by rw [ended]; exact pending)
  rw [hammerReport_of_plausible plausible]
  exact ⟨frame.hub.trans (by rw [learned]), frame.voicing, p, struck, retired, own.trans ended⟩

theorem hammerReport_hub_of_strike (strike : (s.key k).phase = .strike n v l true e m) :
    (hammerReport k dt s).hub = s.hub := by
  rcases lt_or_ge (clockDiff (reportTimeNow s) l.actual) 0 with early | onTime
  · exact (hammerReport_of_early plausible strike early).1
  · exact (hammerReport_of_sensed plausible strike onTime).1

end

/-! ### What is learned (R155 to R157) -/

/-- A curve corrected and put in order again: the two corrected breakpoints, the others, and the pass upward. -/
theorem restoreOrder_correctCurve (keep : Nat → Nat → Nat) (hi : Nat) (error : Int) (gain f : Nat) (i : Fin 7)
    (curve : Vector Nat 8) : ∃ x : Vector Nat 8,
      x[i.castSucc] = clampNat hi ((curve[i.castSucc] : Int) + learnIncrement error gain (256 - f)) ∧
      x[i.succ] = clampNat hi ((curve[i.succ] : Int) + learnIncrement error gain f) ∧
      (∀ j : Fin 8, j ≠ i.castSucc → j ≠ i.succ → x[j] = curve[j]) ∧
      (restoreOrder keep (correctCurve hi error gain i f curve))[0] = x[0] ∧
      ∀ j : Fin 7, (restoreOrder keep (correctCurve hi error gain i f curve))[j.succ] =
        keep x[j.succ] (restoreOrder keep (correctCurve hi error gain i f curve))[j.castSucc] :=
  ⟨correctCurve hi error gain i f curve, correctCurve_low, correctCurve_high, fun _ => correctCurve_other,
    restoreOrder_zero, restoreOrder_succ⟩

section
variable {error : Int} {gain : Nat} {v : StrikeValues} {r : VoicingRecord}

theorem learnDrive_of_hard (hard : v.shift < 64) : learnDrive error gain v r = learnDuty error gain v r := if_pos hard

theorem learnDrive_of_between (low : 64 ≤ v.shift) (high : v.shift < 960) : learnDrive error gain v r = r := by
  rw [learnDrive, if_neg (Nat.not_lt.mpr low), if_neg (Nat.not_le.mpr high)]

theorem learnDrive_of_soft (soft : 960 ≤ v.shift) : learnDrive error gain v r = learnTrim error gain r := by
  rw [learnDrive, if_neg (by omega), if_pos soft]

theorem learnDrive_flights : (learnDrive error gain v r).flights = r.flights := by
  unfold learnDrive
  split
  · rfl
  · split <;> rfl

theorem learnDrive_duties (soft : 64 ≤ v.shift) : (learnDrive error gain v r).duties = r.duties := by
  rw [learnDrive, if_neg (Nat.not_lt.mpr soft)]
  split <;> rfl

end

/-- Settles O51: the outcomes of R146 to R149 by the interval, the key's phase and the report time, and what a
learning update makes of a record. -/
theorem hammerReportsEndStrikes : Obligations.HammerReportsEndStrikes := by
  refine ⟨fun s a t k b1 b2 b3 dt arrived ready heeded burst good interval => ?reported,
    fun s mv mf e df v r r' learned velocityError flightError => ?learned⟩
  case reported =>
    have run := exec_hubReport (b3 := b3) arrived ready heeded burst
    rw [takeReport_of_key k good, ← interval] at run
    refine ⟨_, run, fun implausible => ?implausible, fun least most => ?plausible⟩
    case implausible =>
      rw [hammerReport, if_neg (by omega)]
      rfl
    case plausible =>
      have plausible := And.intro least most
      set u := reported (byteOf (keyNumber k)) b1 b2 b3 a
      obtain ⟨discarded, implausible⟩ := hammerReport_counters (k := k) (s := u) plausible
      refine ⟨fun j foreign still => hammerReport_key_ne plausible foreign still, discarded, implausible,
        fun unsensed quiet => hammerReport_of_unexpected plausible unsensed quiet,
        fun n v l e m strike => ⟨?counter, fun early => ?early, fun onTime => ?onTime⟩⟩
      case counter =>
        rw [hammerReport_hub_of_strike (s := u) plausible strike]
        rfl
      case early =>
        obtain ⟨-, voicing, own⟩ := hammerReport_of_early (s := u) plausible strike early
        rw [own]
        exact ⟨rfl, rfl, rfl, voicing⟩
      case onTime =>
        obtain ⟨-, voicing, p, struck, retired, own⟩ := hammerReport_of_sensed (s := u) plausible strike onTime
        rw [own]
        refine ⟨rfl, rfl, struck, retired, fun j foreign => ?others, fun other => ?kept,
          fun on heeded normal idle => ?taught⟩
        case others =>
          rw [State.voice, voicing]
          exact applyLearning_voice_ne foreign
        case kept =>
          rw [voicing, applyLearning_of_other (s := u) other]
          rfl
        case taught =>
          have applies : learningApplies u k l = true := learningApplies_iff.mpr ⟨on, heeded, normal, idle⟩
          rw [State.voice, voicing, applyLearning_of_learning applies]
          exact (u.voice_setVoice k k _).trans (if_pos rfl)
  case learned =>
    subst learned velocityError flightError
    obtain ⟨holdDuty, repeatGap⟩ := learnRecord_kept s mv mf v r
    refine ⟨holdDuty, repeatGap, fun hard => ?duty, fun soft => learnDrive_duties soft, fun low high => ?between,
      fun soft => ?trim, ?flight⟩
    case duty =>
      refine ⟨?_, ?_⟩
      · rw [learnRecord, learnDrive_of_hard hard]
        rfl
      · rw [learnRecord, learnDrive_of_hard hard]
        exact restoreOrder_correctCurve max 1023 _ _ v.fraction v.interval r.duties
    case between =>
      rw [learnRecord, learnDrive_of_between low high]
      rfl
    case trim =>
      rw [learnRecord, learnDrive_of_soft soft]
      rfl
    case flight =>
      have corrected := restoreOrder_correctCurve min 4000 (mf - v.flight) (s.setting .learnGainFlight) v.fraction
        v.interval r.flights
      rw [learnRecord, learnFlight, learnDrive_flights]
      exact corrected

end Sys2Proof.Machine
end

section
/-! VOICE_WRITE and VOICE_COMMIT, and the words of the image that a commit writes (08_hammer_sensing R161; 11_host_port
R197, R203). -/

namespace Sys2Proof.Machine

/-! ### VOICE_WRITE (R161) -/

section
variable {k : Key} {bytes : List Byte} {s : State}

/-- The record behind the key's byte. -/
theorem argRecord_cons (b : Byte) (bytes : List Byte) :
    argRecord (b :: bytes) = recordOfWords fun j => valueOf ((bytes.drop (2 * j)).take 2) := by
  refine congrArg recordOfWords (funext fun j => ?_)
  rw [arg16, Nat.add_comm 1, List.drop_succ_cons]

theorem actVoiceWrite_of_key : actVoiceWrite (byteOf (keyNumber k) :: bytes) s =
    if s.loader.commit.isSome then refuse s .busy
    else if (argRecord (byteOf (keyNumber k) :: bytes)).valid then
      answerOk (s.setVoice k (argRecord (byteOf (keyNumber k) :: bytes))) []
    else refuse s .badArgument := by
  rw [actVoiceWrite, keyOfNumber_argByte rfl]

theorem actVoiceWrite_of_other {n : Nat} (out : n = 0 ∨ 88 < n) (byte : n < 256) :
    actVoiceWrite (byteOf n :: bytes) s = refuse s .badArgument := by
  rw [actVoiceWrite, keyOfNumber_argByte_of_other rfl out byte]

/-- The arguments of a VOICE_WRITE fill its frame. -/
theorem voiceWrite_allowed (b : Byte) (full : bytes.length = 38) :
    argumentsAllowed 0x2B (b :: bytes).length = true := by
  rw [List.length_cons, full]
  rfl

end

/-! ### The words of the settings (R203) -/

/-- The first image word of a setting, from its number. -/
theorem row_word_eq (x : Setting) : x.row.word =
    if x.row.number ≤ 26 then x.row.number + 2 else if x.row.number = 27 then 30 else x.row.number + 4 := by
  cases x <;> rfl

theorem row_wide_iff (x : Setting) : x.row.wide = true ↔ x = .heatWarn ∨ x = .heatMax := by
  cases x <;> decide

/-- The settings lie between the flags word and the records. -/
theorem row_word_bounds (x : Setting) : 3 ≤ x.row.word ∧ x.row.word + 1 < 49 ∧
    (x.row.wide = true → x.row.word + 1 < 48) := by
  cases x <;> decide

/-- Each word of the settings belongs to one setting. -/
theorem find_setting_of_word (x : Setting) : allSettings.find? (fun y =>
    decide (y.row.word = x.row.word ∨ (y.row.wide = true ∧ y.row.word + 1 = x.row.word))) = some x := by
  cases x <;> rfl

theorem find_setting_of_second_word (x : Setting) (wide : x.row.wide = true) : allSettings.find? (fun y =>
    decide (y.row.word = x.row.word + 1 ∨ (y.row.wide = true ∧ y.row.word + 1 = x.row.word + 1))) = some x := by
  rcases (row_wide_iff x).mp wide with rfl | rfl <;> rfl

theorem ofNat_mod_word (n : Nat) : BitVec.ofNat 16 (n % 65536) = BitVec.ofNat 16 n :=
  BitVec.eq_of_toNat_eq (by simp)

theorem settingWord_narrow (settings : Settings) (x : Setting) (narrow : ¬ x.row.wide = true) :
    settingWord settings x.row.word = BitVec.ofNat 16 (settings.get x) := by
  rw [settingWord, find_setting_of_word]
  dsimp only
  rw [if_neg (fun wide => narrow wide.1), ofNat_mod_word]

theorem settingWord_wide (settings : Settings) (x : Setting) (wide : x.row.wide = true) :
    settingWord settings x.row.word = BitVec.ofNat 16 (settings.get x / 65536) := by
  rw [settingWord, find_setting_of_word]
  exact if_pos ⟨wide, rfl⟩

theorem settingWord_second (settings : Settings) (x : Setting) (wide : x.row.wide = true) :
    settingWord settings (x.row.word + 1) = BitVec.ofNat 16 (settings.get x) := by
  rw [settingWord, find_setting_of_second_word x wide]
  dsimp only
  rw [if_neg (by omega), ofNat_mod_word]

section
variable (settings : Settings) (voicing : Vector VoicingRecord 88) {n : Nat}

theorem imageWord_of_setting (low : 3 ≤ n) (high : n < 48) : imageWord settings voicing n = settingWord settings n := by
  rw [imageWord, if_neg (by omega), if_neg (by omega), if_neg (by omega), if_pos high]

/-- Words that no field of the image takes (R203). -/
theorem imageWord_of_unread (unread : 48 ≤ n ∧ n < 64 ∨ 1824 ≤ n ∧ n < 1828) :
    imageWord settings voicing n = 0xFFFF := by
  rw [imageWord, if_neg (by omega), if_neg (by omega), if_neg (by omega), if_neg (by omega), if_neg (by omega)]

/-! ### The words of the records (R203) -/

theorem imageWord_of_record (k : Key) {j : Nat} (field : j < 20) :
    imageWord settings voicing (64 + 20 * (keyNumber k - 1) + j) = recordWord voicing[k] j := by
  have place : (64 + 20 * (keyNumber k - 1) + j - 64) / 20 = k.val ∧
      (64 + 20 * (keyNumber k - 1) + j - 64) % 20 = j := by
    unfold keyNumber
    omega
  have least : 64 ≤ 64 + 20 * (keyNumber k - 1) + j ∧ 64 + 20 * (keyNumber k - 1) + j < 1824 := by
    unfold keyNumber
    omega
  rw [imageWord, if_neg (by omega), if_neg (by omega), if_neg (by omega), if_neg (by omega), if_pos least, place.1,
    place.2]
  simp

end

section
variable (r : VoicingRecord) (j : Fin 8)

theorem recordWord_duty : recordWord r j = BitVec.ofNat 16 r.duties[j] := by
  rw [recordWord, if_pos j.isLt]
  simp

theorem recordWord_flight : recordWord r (8 + j) = BitVec.ofNat 16 r.flights[j] := by
  rw [recordWord, if_neg (by omega), if_pos (by omega), Nat.add_sub_cancel_left]
  simp

end

/-- A new commit carries the CRC of the image that it writes (R203). -/
theorem newCommit_crc (s : State) :
    (newCommit s).crc = crc16 (imageBytes fun w => (imageWord s.settings s.voicing w).toNat) := by
  rw [newCommit, imageCrc]

/-- Settles O59: the two requests by their refusals, and the image word by word. -/
theorem voiceWriteAndCommit : Obligations.VoiceWriteAndCommit := by
  refine ⟨fun s a t tag k r bytes arrived full record head => ?write,
    fun s a t tag bytes n arrived full out byte head => ?unnamed, fun s a t tag acked arrived head => ?commit,
    fun settings voicing word image => ?words⟩
  case write =>
    have allowed := voiceWrite_allowed (byteOf (keyNumber k)) full
    have given : argRecord (byteOf (keyNumber k) :: bytes) = r := (argRecord_cons _ bytes).trans record.symm
    have act : actVoiceWrite (byteOf (keyNumber k) :: bytes) a.dropHead = _ := actVoiceWrite_of_key
    rw [given] at act
    refine ⟨fun committing => ?busy, fun idle bad => ?bad, fun idle valid => ?written⟩
    case busy => exact exec_of_answer rfl arrived head allowed (act.trans (if_pos committing))
    case bad =>
      have still : ¬ a.dropHead.loader.commit.isSome = true := by simp [idle]
      rw [if_neg still, if_neg (by rw [bad]; exact Bool.noConfusion)] at act
      exact exec_of_answer rfl arrived head allowed act
    case written =>
      have still : ¬ a.dropHead.loader.commit.isSome = true := by simp [idle]
      rw [if_neg still, if_pos valid] at act
      exact exec_of_effect rfl arrived head allowed act
  case unnamed =>
    exact exec_of_answer rfl arrived head (voiceWrite_allowed _ full) (actVoiceWrite_of_other out byte)
  case commit =>
    refine ⟨?low, fun committing => ?busy, fun idle => ⟨newCommit a, ?begun, rfl, rfl, rfl, rfl, rfl, newCommit_crc a⟩⟩
    case low => exact exec_of_request (act := actVoiceCommit false acked) rfl arrived head rfl
    case busy =>
      have act : actVoiceCommit true acked [] a.dropHead = refuse (readPin true a.dropHead) .busy := if_pos committing
      rw [exec_of_request rfl arrived head rfl, act]
      rfl
    case begun =>
      have act : actVoiceCommit true true [] a.dropHead =
          answerOk (beginCommit true (readPin true a.dropHead)) [] := by
        refine if_neg ?_
        simp [idle]
      rw [exec_of_effect rfl arrived head rfl act]
      rfl
  case words =>
    refine ⟨image 0, image 1, image 2, fun n unread => ?unread, fun x first place => ?settings,
      fun k r first record place => ?record⟩
    case unread => rw [image, imageWord_of_unread settings voicing unread]
    case settings =>
      obtain rfl : first = x.row.word := place.trans (row_word_eq x).symm
      obtain ⟨low, high, second⟩ := row_word_bounds x
      rw [image, imageWord_of_setting settings voicing low (by omega)]
      refine ⟨fun notWarn notMax => settingWord_narrow settings x fun wide => ?_, fun wide => ⟨?_, ?_⟩⟩
      · exact ((row_wide_iff x).mp wide).elim notWarn notMax
      · exact settingWord_wide settings x ((row_wide_iff x).mpr wide)
      · have two := (row_wide_iff x).mpr wide
        rw [image, imageWord_of_setting settings voicing (by omega) (second two), settingWord_second settings x two]
    case record =>
      subst record place
      refine ⟨fun j => ⟨?_, ?_⟩, ?_, ?_, ?_, ?_⟩
      · rw [image, imageWord_of_record settings voicing k (by omega), recordWord_duty]
      · rw [image, Nat.add_assoc _ 8, imageWord_of_record settings voicing k (by omega), recordWord_flight]
      all_goals
        rw [image, imageWord_of_record settings voicing k (by decide)]
        rfl

end Sys2Proof.Machine
end

section
/-! The ranges of the settings, of the half contexts and of the pedals, and what keeps them (04_expression R57 to R72,
09_pedals R163 to R178, 11_host_port R199 to R201). -/

namespace Sys2Proof.Machine

/-! ### The settings (R116, R142, R199, R201) -/

/-- Every setting in its range and the two pairs in order. -/
def Settings.Fits (t : Settings) : Prop :=
  (∀ x : Setting, x.inRange (t.get x) = true) ∧ t.get .velMin < t.get .velMax ∧ t.get .heatWarn < t.get .heatMax

theorem settingsSafe_iff {s : State} : SettingsSafe s ↔ s.settings.Fits := Iff.rfl

theorem Setting.inRange_iff {x : Setting} {v : Nat} : x.inRange v = true ↔ x.row.lo ≤ v ∧ v ≤ x.row.hi :=
  decide_eq_true_iff

theorem Setting.inRange_dflt (x : Setting) : x.inRange x.row.dflt = true := by cases x <;> rfl

theorem SettingsSafe.le {s : State} (h : SettingsSafe s) (x : Setting) : s.setting x ≤ x.row.hi := by
  obtain ⟨range, -⟩ := h
  exact (Setting.inRange_iff.mp (range x)).2

/-- A write in range that breaks no pair keeps the settings. -/
theorem Settings.Fits.put {t : Settings} (h : t.Fits) {x : Setting} {v : Nat} (range : x.inRange v = true)
    (velocity : (t.put x v).get .velMin < (t.put x v).get .velMax)
    (heat : (t.put x v).get .heatWarn < (t.put x v).get .heatMax) : (t.put x v).Fits := by
  obtain ⟨ranges, -⟩ := h
  refine ⟨fun y => ?_, velocity, heat⟩
  rw [Settings.get_put]
  split
  · rename_i own
    exact own ▸ range
  · exact ranges y

/-- The tests of CONFIG_WRITE keep the settings (R116, R142, R199). -/
theorem SettingsSafe.putSetting {s : State} (h : SettingsSafe s) {x : Setting} {v : Nat} (range : x.inRange v = true)
    (ordered : pairBroken s x v = false) : SettingsSafe (s.putSetting x v) := by
  have ⟨_, velocity, heat⟩ := h
  refine Settings.Fits.put h range ?_ ?_ <;> simp only [Settings.get_put]
  · cases x
    case velMin | velMax => exact Nat.not_le.mp (of_decide_eq_false ordered)
    all_goals exact velocity
  · cases x
    case heatWarn | heatMax => exact Nat.not_le.mp (of_decide_eq_false ordered)
    all_goals exact heat

theorem foldl_put_get (f : Setting → Nat) (l : List Setting) (t : Settings) (y : Setting) :
    (l.foldl (fun u x => u.put x (f x)) t).get y = if y ∈ l then f y else t.get y := by
  induction l generalizing t with
  | nil => rfl
  | cons x l ih =>
    rw [List.foldl_cons, ih, Settings.get_put]
    by_cases own : y = x
    · subst own
      simp
    · simp [own, Ne.symm own]

theorem settingsOf_get (f : Setting → Nat) (x : Setting) : (settingsOf f).get x = f x :=
  (foldl_put_get f allSettings _ x).trans (if_pos (by cases x <;> decide))

theorem Settings.defaults_fits : Settings.defaults.Fits := by
  refine ⟨fun x => ?_, ?_, ?_⟩ <;> simp only [Settings.defaults, settingsOf_get]
  · exact x.inRange_dflt
  · decide
  · decide

theorem loadedSetting_inRange (m : List Host.Cell) (x : Setting) : x.inRange (loadedSetting m x) = true := by
  have tested (v : Nat) : x.inRange (settingOrDefault x v) = true := by
    unfold settingOrDefault
    split
    · assumption
    · exact x.inRange_dflt
  unfold loadedSetting
  dsimp only
  split
  · split
    · exact x.inRange_dflt
    · exact tested _
  · split
    · exact x.inRange_dflt
    · exact tested _

/-- A pair that is out of order takes its defaults, which are in order. -/
theorem pairOrDefaults_ordered {low high : Setting} (t : Settings) (distinct : high ≠ low)
    (ordered : low.row.dflt < high.row.dflt) :
    (pairOrDefaults low high t).get low < (pairOrDefaults low high t).get high := by
  unfold pairOrDefaults
  split
  · assumption
  · simp only [Settings.get_put, if_neg distinct, if_true]
    exact ordered

theorem pairOrDefaults_get_of_other {low high x : Setting} (t : Settings) (notLow : low ≠ x) (notHigh : high ≠ x) :
    (pairOrDefaults low high t).get x = t.get x := by
  unfold pairOrDefaults
  split
  · rfl
  · simp only [Settings.get_put, if_neg notLow, if_neg notHigh]

theorem pairOrDefaults_inRange {low high : Setting} {t : Settings} (range : ∀ x : Setting, x.inRange (t.get x) = true)
    (x : Setting) : x.inRange ((pairOrDefaults low high t).get x) = true := by
  unfold pairOrDefaults
  split
  · exact range x
  · simp only [Settings.get_put]
    split
    · rename_i own
      exact own ▸ high.inRange_dflt
    · split
      · rename_i own
        exact own ▸ low.inRange_dflt
      · exact range x

/-- The settings a load gives are safe, whatever the image (R200, R201). -/
theorem settingsAfterLoad_fits (acked : Bool) (m : List Host.Cell) : (settingsAfterLoad acked m).Fits := by
  unfold settingsAfterLoad
  split
  · refine ⟨fun x => ?_, ?_, ?_⟩ <;> unfold loadedSettings
    · refine pairOrDefaults_inRange (pairOrDefaults_inRange fun y => ?_) x
      rw [settingsOf_get]
      exact loadedSetting_inRange m y
    · rw [pairOrDefaults_get_of_other (low := .heatWarn) (high := .heatMax) (x := .velMin) _ nofun nofun,
        pairOrDefaults_get_of_other (low := .heatWarn) (high := .heatMax) (x := .velMax) _ nofun nofun]
      exact pairOrDefaults_ordered (low := .velMin) (high := .velMax) _ nofun (by decide)
    · exact pairOrDefaults_ordered (low := .heatWarn) (high := .heatMax) _ nofun (by decide)
  · exact Settings.defaults_fits

/-! ### The half contexts (R57 to R72) -/

section
variable {c : HalfContext}

theorem halfSafe_atReset {level : Nat} (bounded : level ≤ 1023) : halfSafe (HalfContext.atReset level) :=
  ⟨bounded, Nat.mul_le_mul_left 16 bounded, (by decide : 512 ≤ 1023), (by decide : (-1023 : Int) ≤ 0),
    (by decide : (0 : Int) ≤ 1023), nofun⟩

theorem halfSafe.withLatch (h : halfSafe c) {latch : Option ChordLatch}
    (bounded : ∀ l, latch = some l → l.level ≤ 1023) : halfSafe { c with latch := latch } := by
  obtain ⟨base, effective, fixed, low, high, -⟩ := h
  exact ⟨base, effective, fixed, low, high, bounded⟩

theorem halfSafe.stepContext (h : halfSafe c) (size : Int) : halfSafe (stepContext size c) := by
  obtain ⟨-, effective, fixed, low, high, latch⟩ := h
  refine ⟨clampNat_le _ _, ?_, fixed, low, high, latch⟩
  dsimp only [Machine.stepContext]
  split
  · exact clampNat_le _ _
  · exact effective

theorem halfSafe.controlContext (h : halfSafe c) (stepSize : Nat) (f : ControlFunction) (confirmed : Bool) :
    halfSafe (controlContext stepSize f confirmed c) := by
  cases f with
  | stepUp | stepDown =>
    dsimp only [Machine.controlContext]
    split
    · exact h.stepContext _
    · exact h
  | crescSlow | crescFast | accent | sforzando => exact h

theorem halfSafe.rampContext (h : halfSafe c) (slow fast : Nat) : halfSafe (rampContext slow fast c) := by
  rw [rampContext_frame]
  obtain ⟨base, effective, fixed, low, high, latch⟩ := h
  refine ⟨base, ?_, fixed, low, high, latch⟩
  unfold Machine.rampContext
  extract_lets target rate
  have within : target ≤ 16368 := by dsimp only [target]; split <;> omega
  split
  · exact (Nat.min_le_left _ _).trans within
  · split
    · exact Nat.max_le.mpr ⟨within, (Nat.sub_le _ _).trans effective⟩
    · exact effective

/-- EXPR_SET stores values in their ranges alone (R76). -/
theorem halfSafe.setMode (h : halfSafe c) {mode : Nat} {value : Int} {c' : HalfContext}
    (set : setMode mode value c = some c') : halfSafe c' := by
  obtain ⟨base, effective, fixed, low, high, latch⟩ := h
  unfold Machine.setMode at set
  split at set
  · cases set
    exact ⟨base, effective, fixed, low, high, latch⟩
  · split at set
    · rename_i range
      cases set
      exact ⟨base, effective, by dsimp only; omega, low, high, latch⟩
    · cases set
  · split at set
    · rename_i range
      cases set
      exact ⟨base, effective, fixed, range.1, range.2, latch⟩
    · cases set
  · cases set

/-- The output level lies in 0..1023 (R66). -/
theorem halfSafe.outputLevel_le (h : halfSafe c) (sfzBoost : Nat) : outputLevel sfzBoost c ≤ 1023 := by
  obtain ⟨-, effective, fixed, -⟩ := h
  unfold outputLevel
  split
  · unfold rollLevel
    split
    · exact Nat.min_le_left _ _
    · omega
  · exact fixed
  · exact clampNat_le _ _

end

/-- The chord latch that a level request leaves holds an output level or what it held (R71). -/
theorem chordPart_latch_le {window output : Nat} {onset : LineNo} {latch : Option ChordLatch} (bounded : output ≤ 1023)
    (held : ∀ l, latch = some l → l.level ≤ 1023) (l : ChordLatch)
    (left : (chordPart window output onset latch).2 = some l) : l.level ≤ 1023 := by
  unfold chordPart at left
  split at left
  · exact held l left
  · split at left
    · split at left
      · exact held l left
      · cases left
        exact bounded
    · cases left
      exact bounded

theorem ExpressionSafe.half {s : State} (h : ExpressionSafe s) (half : Half) : halfSafe (s.half half) := by
  obtain ⟨-, bass, treble⟩ := h
  cases half with
  | bass => exact bass
  | treble => exact treble

theorem ExpressionSafe.output_le {s : State} (h : ExpressionSafe s) (half : Half) : s.output half ≤ 1023 :=
  (h.half half).outputLevel_le _

/-! ### The pedals (R163 to R178) -/

theorem PedalsSafe.settings {s : State} (h : PedalsSafe s) : SettingsSafe s := h.1

theorem PedalsSafe.pedal {s : State} (h : PedalsSafe s) (p : Pedal) : pedalSafe (s.pedal p) := by
  obtain ⟨-, sustain, shift, -⟩ := h
  cases p with
  | sustain => exact sustain
  | shift => exact shift

theorem pedalSafe_atReset : pedalSafe PedalRecord.atReset := by
  unfold pedalSafe
  decide

section
variable {r : PedalRecord}

/-- A pedal given to an owner with an empty queue and a target in range (R171, R173). -/
theorem pedalSafe.given (h : pedalSafe r) (owner : Source) {target : Nat} (bounded : target ≤ 1023) :
    pedalSafe { r with owner := owner, events := [], target := target } := by
  obtain ⟨idle, fault, -, position, drive, -, -⟩ := h
  exact ⟨idle, fun mode => ⟨(fault mode).1, rfl⟩, bounded, position, drive, Nat.zero_le 8, nofun⟩

theorem pedalSafe.letGo (h : pedalSafe r) : pedalSafe r.letGo := h.given r.owner (Nat.zero_le 1023)

/-- A pedal at rest with nothing to come (R176, R178). -/
theorem pedalSafe.atRest (h : pedalSafe r) (owner : Source) :
    pedalSafe { r with mode := .idle, owner := owner, target := 0, drive := 0, events := [] } := by
  obtain ⟨-, -, -, position, -, -, -⟩ := h
  exact ⟨fun _ => rfl, nofun, Nat.zero_le _, position, Nat.zero_le _, Nat.zero_le _, nofun⟩

theorem pedalSafe.reported (h : pedalSafe r) {position : Nat} (bounded : position ≤ 1023) (last : Option Time) :
    pedalSafe { r with position := position, lastReport := last } := by
  obtain ⟨idle, fault, target, -, drive, events⟩ := h
  exact ⟨idle, fault, target, bounded, drive, events⟩

theorem pedalSafe.drained (h : pedalSafe r) (now : Time) : pedalSafe { r with
    events := (drainEvents now r.events r.target).1, target := (drainEvents now r.events r.target).2 } := by
  obtain ⟨idle, fault, target, position, drive, length, events⟩ := h
  obtain ⟨suffix, last⟩ := drainEvents_spec now r.events r.target
  refine ⟨idle, fun mode => ⟨(fault mode).1, ?_⟩, ?_, position, drive, suffix.length_le.trans length,
    fun e queued => events e (suffix.subset queued)⟩
  · show (drainEvents now r.events r.target).1 = []
    rw [(fault mode).2]
    rfl
  · rcases last with same | ⟨e, queued, drained⟩
    · exact same.trans_le target
    · exact drained.trans_le (events e queued)

/-- A roll pedal event with a target in range keeps the ranges (R165 to R167). -/
theorem pedalSafe.afterEvent (h : pedalSafe r) (now : Time) {e : PedalEvent} (bounded : e.target ≤ 1023) :
    pedalSafe (pedalAfterEvent now e r) := by
  unfold pedalAfterEvent
  split
  · rename_i taken
    obtain ⟨idle, -, target, position, drive, -, events⟩ := h
    have inserted : pedalSafe { r with events := insertEvent e r.events } := by
      refine ⟨idle, fun mode => absurd mode taken.2, target, position, drive, insertEvent_length e _, fun x queued => ?_⟩
      rcases mem_placeEvent e x _ queued with rfl | before
      · exact bounded
      · refine events x ?_
        split at before
        · exact before
        · exact List.mem_of_mem_take before
    exact inserted.drained now
  · exact h

end

/-! ### One servo step of a pedal (R169, R170) -/

/-- What one servo step makes of a pedal's record. -/
def steppedPedal (s : State) (r : PedalRecord) : PedalRecord :=
  if r.mode = .fault then r
  else if withinDeadband s r then
    if r.target = 0 then { r with mode := .idle, drive := givenDrive s r 0 }
    else { r with mode := .holding, drive := givenDrive s r (pedalRequest s r) }
  else if settleExceeded s (moveStart s r) then { r with mode := .fault, drive := 0, events := [] }
  else { r with mode := .moving (moveStart s r), drive := givenDrive s r (pedalRequest s r) }

/-- Whether a servo step sends a pedal to FAULT. -/
def stepFaults (s : State) (r : PedalRecord) : Bool :=
  decide (r.mode ≠ .fault) && !withinDeadband s r && settleExceeded s (moveStart s r)

/-- The fields of the notice PEDAL_FAULT (R170). -/
def faultFields (p : Pedal) (r : PedalRecord) (start : Time) : List Byte :=
  [byteOf (pedalNumber p)] ++ fieldPedalOwner p r.owner ++ field16 r.target ++ field16 r.position ++ fieldTime start

/-- A servo step is a new record, with the notice PEDAL_FAULT when it ends in FAULT. -/
theorem stepPedal_eq (p : Pedal) (s : State) : stepPedal p s =
    if stepFaults s (s.pedal p) then
      (s.setPedal p (steppedPedal s (s.pedal p))).raise .pedalFault
        (faultFields p (s.pedal p) (moveStart s (s.pedal p)))
    else s.setPedal p (steppedPedal s (s.pedal p)) := by
  unfold stepPedal stepFaults steppedPedal
  by_cases fault : (s.pedal p).mode = .fault
  · simp [fault, State.setPedal_pedal]
  · cases within : withinDeadband s (s.pedal p) with
    | true => by_cases released : (s.pedal p).target = 0 <;> simp [fault, within, released]
    | false => cases late : settleExceeded s (moveStart s (s.pedal p)) <;> simp [fault, within, late, faultPedal, faultFields]

theorem givenDrive_le (s : State) (r : PedalRecord) (request : Nat) : givenDrive s r request ≤ request :=
  (limitedClaim_le s r.drive request).1

theorem pedalSafe.stepped {r : PedalRecord} (h : pedalSafe r) (s : State) : pedalSafe (steppedPedal s r) := by
  have drive : givenDrive s r (pedalRequest s r) ≤ 1023 := (givenDrive_le s r _).trans (clampNat_le _ _)
  unfold steppedPedal
  split
  · exact h
  · obtain ⟨-, -, target, position, -, events⟩ := h
    split
    · split
      · have still : givenDrive s r 0 = 0 := Nat.le_zero.mp (givenDrive_le s r 0)
        exact ⟨fun _ => still, nofun, target, position, still.trans_le (Nat.zero_le _), events⟩
      · exact ⟨nofun, nofun, target, position, drive, events⟩
    · split
      · exact ⟨nofun, fun _ => ⟨rfl, rfl⟩, target, position, Nat.zero_le _, Nat.zero_le _, nofun⟩
      · exact ⟨nofun, nofun, target, position, drive, events⟩

end Sys2Proof.Machine
end

section
/-! What the shared operations keep of the ranges of the pedals, of expression, of the source contexts and of the EEPROM's
cells (R57, R66, R116, R142, R163, R165, R179). -/

set_option Elab.async false

namespace Sys2Proof.Machine

/-- Whatever is in its range before an event is in its range after it. -/
structure KeepsRanges (s s' : State) : Prop where
  pedals : PedalsSafe s → PedalsSafe s'
  expression : ExpressionSafe s → ExpressionSafe s'
  contexts : ContextsSafe s → ContextsSafe s'
  eeprom : EepromSafe s → EepromSafe s'

namespace KeepsRanges

variable {s₀ s s' : State} {k : Key}

/-! ### Single updates -/

theorem refl (s : State) : KeepsRanges s s := ⟨id, id, id, id⟩

/-- An event on other blocks. -/
theorem same (h : KeepsRanges s₀ s) (settings : s'.settings = s.settings := by rfl)
    (sustain : s'.pedals.sustain = s.pedals.sustain := by rfl) (shift : s'.pedals.shift = s.pedals.shift := by rfl)
    (entries : s'.cue.entries = s.cue.entries := by rfl)
    (bass : s'.expression.bass = s.expression.bass := by rfl)
    (treble : s'.expression.treble = s.expression.treble := by rfl)
    (contexts : s'.contexts = s.contexts := by rfl) (eeprom : s'.loader.eeprom = s.loader.eeprom := by rfl) :
    KeepsRanges s₀ s' where
  pedals safe := by
    rw [PedalsSafe, settingsSafe_iff, settings, sustain, shift, entries]
    exact h.pedals safe
  expression safe := by
    rw [ExpressionSafe, settingsSafe_iff, settings, bass, treble]
    exact h.expression safe
  contexts safe := by
    rw [ContextsSafe, contexts]
    exact h.contexts safe
  eeprom safe := by
    rw [EepromSafe, eeprom]
    exact h.eeprom safe

theorem raise (h : KeepsRanges s₀ s) (kind : NoticeKind) (fields : List Byte) :
    KeepsRanges s₀ (s.raise kind fields) := by
  refine h.same ?_ ?_ ?_ ?_ ?_ ?_ ?_ ?_ <;>
    simp only [State.raise_settings, State.raise_pedals, State.raise_cue, State.raise_expression,
      State.raise_contexts, State.raise_loader]

theorem setExpression (h : KeepsRanges s₀ s) {x : Expression}
    (fits : ExpressionSafe s → halfSafe x.bass ∧ halfSafe x.treble) :
    KeepsRanges s₀ { s with expression := x } where
  pedals safe := h.pedals safe
  expression safe := ⟨(h.expression safe).1, fits (h.expression safe)⟩
  contexts safe := h.contexts safe
  eeprom safe := h.eeprom safe

theorem setHalf (h : KeepsRanges s₀ s) (half : Half) {c : HalfContext} (fits : ExpressionSafe s → halfSafe c) :
    KeepsRanges s₀ (s.setHalf half c) := by
  cases half with
  | bass => exact h.setExpression fun safe => ⟨fits safe, safe.half .treble⟩
  | treble => exact h.setExpression fun safe => ⟨safe.half .bass, fits safe⟩

theorem setServo (h : KeepsRanges s₀ s) {x : PedalServo}
    (fits : PedalsSafe s₀ → PedalsSafe s → pedalSafe x.sustain ∧ pedalSafe x.shift) :
    KeepsRanges s₀ { s with pedals := x } where
  pedals safe := by
    obtain ⟨settings, -, -, positions⟩ := h.pedals safe
    obtain ⟨sustain, shift⟩ := fits safe (h.pedals safe)
    exact ⟨settings, sustain, shift, positions⟩
  expression safe := h.expression safe
  contexts safe := h.contexts safe
  eeprom safe := h.eeprom safe

theorem setPedal (h : KeepsRanges s₀ s) (p : Pedal) {r : PedalRecord} (fits : PedalsSafe s₀ → PedalsSafe s → pedalSafe r) :
    KeepsRanges s₀ (s.setPedal p r) := by
  cases p with
  | sustain => exact h.setServo fun initial safe => ⟨fits initial safe, safe.pedal .shift⟩
  | shift => exact h.setServo fun initial safe => ⟨safe.pedal .sustain, fits initial safe⟩

/-- The positions of the PEDAL entries decide what the cue player keeps (R182). -/
theorem setCue (h : KeepsRanges s₀ s) {c : CuePlayer} (fits : PedalsSafe s →
    ∀ p position time, .pedal p position time ∈ c.entries → position ≤ 1023) : KeepsRanges s₀ (s.setCue c) where
  pedals safe := by
    obtain ⟨settings, sustain, shift, -⟩ := h.pedals safe
    exact ⟨settings, sustain, shift, fits (h.pedals safe)⟩
  expression safe := h.expression safe
  contexts safe := h.contexts safe
  eeprom safe := h.eeprom safe

theorem putSetting (h : KeepsRanges s₀ s) {x : Setting} {v : Nat} (range : x.inRange v = true)
    (ordered : pairBroken s x v = false) : KeepsRanges s₀ (s.putSetting x v) where
  pedals safe := ⟨(h.pedals safe).settings.putSetting range ordered, (h.pedals safe).2⟩
  expression safe := ⟨(h.expression safe).1.putSetting range ordered, (h.expression safe).2⟩
  contexts safe := h.contexts safe
  eeprom safe := h.eeprom safe

theorem setContext (h : KeepsRanges s₀ s) (source : Source) {c : ContextBlock} (valid : c.valid = true) :
    KeepsRanges s₀ (s.setContext source c) := by
  cases source with
  | roll => exact ⟨fun safe => h.pedals safe, fun safe => h.expression safe,
      fun safe => ⟨valid, (h.contexts safe).2⟩, fun safe => h.eeprom safe⟩
  | cue => exact ⟨fun safe => h.pedals safe, fun safe => h.expression safe,
      fun safe => ⟨(h.contexts safe).1, valid⟩, fun safe => h.eeprom safe⟩

theorem setLoader (h : KeepsRanges s₀ s) {l : ImageLoader}
    (fits : EepromSafe s → Memory.wf l.eeprom = true) : KeepsRanges s₀ (s.setLoader l) where
  pedals safe := h.pedals safe
  expression safe := h.expression safe
  contexts safe := h.contexts safe
  eeprom safe := fits (h.eeprom safe)

/-- An event on one key. -/
theorem of_keyFrame (h : KeepsRanges s₀ s) (frame : KeyFrame k s s') : KeepsRanges s₀ s' := by
  obtain ⟨_, _, _, rfl⟩ := frame.rest
  exact h.same

/-- An event on one key after another. -/
theorem foldl_keys (h : KeepsRanges s₀ s) {f : Key → State → State}
    (each : ∀ k s, KeepsRanges s₀ s → KeepsRanges s₀ (f k s)) (keys : List Key) :
    KeepsRanges s₀ (keys.foldl (fun t k => f k t) s) :=
  List.foldlRecOn keys _ h fun t kept k _ => each k t kept

/-! ### The examination of the head (R118 to R121) -/

theorem examineHead (h : KeepsRanges s₀ s) : KeepsRanges s₀ (examineHead s) := by
  obtain ⟨keys, queue, e, -⟩ := examineHead_spec s
  rw [e]
  exact h.same

theorem reexamineHead (h : KeepsRanges s₀ s) : KeepsRanges s₀ (reexamineHead s) := by
  rcases reexamineHead_spec s with e | e <;> rw [e]
  · exact h
  · exact h.examineHead

theorem settling {f : State → State} (h : KeepsRanges s₀ (f s)) (placed : Option Key) :
    KeepsRanges s₀ (settling placed f s) := by
  rcases settling_spec placed f s with e | e <;> rw [e]
  · exact h
  · exact h.examineHead

/-! ### Claims and closes (R81 to R88) -/

/-- A level request may take a chord's level, an output level, into the latch (R71). -/
theorem levelNote (h : KeepsRanges s₀ s) (c : Claim) : KeepsRanges s₀ (levelNote c s).1 := by
  unfold Machine.levelNote
  cases c.level with
  | roll onset accent =>
    refine h.setHalf _ fun safe => (safe.half _).withLatch ?_
    obtain ⟨-, -, -, -, -, held⟩ := safe.half (keyHalf s c.key)
    exact chordPart_latch_le (safe.output_le _) held
  | given level => exact h
  | follow => exact h

theorem takeClaim (h : KeepsRanges s₀ s) (c : Claim) : KeepsRanges s₀ (takeClaim c s) := by
  have levelled := h.levelNote c
  unfold Machine.takeClaim
  split
  rename_i s1 n answer
  rw [answer] at levelled
  split
  case h_8 => exact h
  all_goals exact levelled.same

theorem claim (h : KeepsRanges s₀ s) (c : Claim) : KeepsRanges s₀ (claim c s).1 := by
  rcases claim_spec c s with ⟨-, e⟩ | ⟨-, -, e⟩ | ⟨-, -, -, e⟩ | ⟨-, -, -, e⟩ <;> rw [e]
  · exact h
  · exact h
  · exact h
  · exact (h.takeClaim c).settling _

theorem closeKey (h : KeepsRanges s₀ s) (o : Owner) (release : Time) (k : Key) :
    KeepsRanges s₀ (closeKey o release k s) := by
  rcases closeKey_spec o release k s with e | ⟨-, p, e⟩ <;> rw [e]
  · exact h
  · exact h.same

theorem closeAll (h : KeepsRanges s₀ s) (o : Owner) (release : Time) : KeepsRanges s₀ (closeAll o release s) :=
  h.foldl_keys (fun k _ kept => kept.closeKey o release k) allKeys

/-! ### Withdrawal and silence (R97, R100, R101, R106, R107) -/

theorem updatePhases (h : KeepsRanges s₀ s) (f : Key → KeyRecord → KeyPhase) :
    KeepsRanges s₀ (updatePhases f s) := by
  rw [updatePhases_frame]
  exact h.same

theorem withdrawSource (h : KeepsRanges s₀ s) (source : Source) : KeepsRanges s₀ (withdrawSource source s) :=
  h.updatePhases _

theorem silenceKeys (h : KeepsRanges s₀ s) : KeepsRanges s₀ (silenceKeys s) := h.updatePhases _

theorem silenceOutside (h : KeepsRanges s₀ s) (source : Source) (low high : Nat) :
    KeepsRanges s₀ (silenceOutside source low high s) := h.updatePhases _

/-! ### Strike ends and the hold timeout (R90, R91, R94a, R126) -/

theorem retireKey (h : KeepsRanges s₀ s) (k : Key) (reason : RetireReason) : KeepsRanges s₀ (retireKey k reason s) :=
  h.of_keyFrame (.retireKey reason s)

theorem endStrike (h : KeepsRanges s₀ s) (k : Key) : KeepsRanges s₀ (endStrike k s) := h.of_keyFrame (.endStrike s)

theorem missStrike (h : KeepsRanges s₀ s) (k : Key) : KeepsRanges s₀ (missStrike k s) := by
  have counted : KeepsRanges s₀ (s.setKey k { s.key k with missCount := (s.key k).missCount + 1 }) := h.same
  unfold Machine.missStrike
  dsimp only
  split
  · exact counted.retireKey k _
  · exact counted.endStrike k

theorem unsenseStrike (h : KeepsRanges s₀ s) (k : Key) : KeepsRanges s₀ (unsenseStrike k s) := by
  unfold Machine.unsenseStrike
  split
  · rename_i n v l _ _ m _
    have unsensed : KeepsRanges s₀ (s.setPhase k (.strike n v l false (unsensedEnd v l) m)) := h.same
    dsimp only
    split
    · exact unsensed.endStrike k
    · exact unsensed
  · exact h

theorem timeOutKey (h : KeepsRanges s₀ s) (k : Key) : KeepsRanges s₀ (timeOutKey k s) := by
  obtain ⟨keys, port, e, -⟩ := timeOutKey_frame k s
  rw [e]
  exact h.same

theorem timeOutIfDue (h : KeepsRanges s₀ s) (k : Key) : KeepsRanges s₀ (timeOutIfDue k s) := by
  unfold Machine.timeOutIfDue
  split
  · split
    · exact h.timeOutKey k
    · exact h
  · exact h

/-! ### The clock (log 3, 4) -/

theorem arrive (h : KeepsRanges s₀ s) (t : Time) : KeepsRanges s₀ (s.arrive t) := by
  obtain ⟨keys, queue, port, e⟩ := s.arrive_frame t
  rw [e]
  exact h.same

/-! ### The pedals (R165 to R178) -/

theorem cuePedal (h : KeepsRanges s₀ s) (p : Pedal) {position : Nat} (bounded : PedalsSafe s₀ → position ≤ 1023) :
    KeepsRanges s₀ (cuePedal p position s).1 := by
  rcases cuePedal_spec p position s with ⟨-, e⟩ | ⟨-, -, -, e⟩ | ⟨-, e⟩ <;> rw [e]
  · exact h
  · exact h
  · exact h.setPedal p fun initial safe => (safe.pedal p).given .cue (bounded initial)

theorem rollPedalEvent (h : KeepsRanges s₀ s) (p : Pedal) (time : Time) {target : Nat}
    (bounded : PedalsSafe s → target ≤ 1023) : KeepsRanges s₀ (rollPedalEvent p time target s) := by
  rw [rollPedalEvent_eq]
  exact h.setPedal p fun _ safe => (safe.pedal p).afterEvent _ (bounded safe)

theorem applyDueEvents (h : KeepsRanges s₀ s) (p : Pedal) : KeepsRanges s₀ (applyDueEvents p s) :=
  h.setPedal p fun _ safe => (safe.pedal p).drained s.clock

theorem stepPedal (h : KeepsRanges s₀ s) (p : Pedal) : KeepsRanges s₀ (stepPedal p s) := by
  have stepped : KeepsRanges s₀ (s.setPedal p (steppedPedal s (s.pedal p))) :=
    h.setPedal p fun _ safe => (safe.pedal p).stepped s
  rw [stepPedal_eq]
  split
  · exact stepped.raise _ _
  · exact stepped

theorem faultPedal (h : KeepsRanges s₀ s) (p : Pedal) (start : Time) : KeepsRanges s₀ (faultPedal p start s) := by
  refine (h.setPedal p fun _ safe => ?_).raise _ _
  obtain ⟨-, -, target, position, -⟩ := safe.pedal p
  exact ⟨nofun, fun _ => ⟨rfl, rfl⟩, target, position, Nat.zero_le _, Nat.zero_le _, nofun⟩

/-! ### The withdrawal of the roll and the reset of the half contexts (R32, R67) -/

theorem rollWithdrawal (h : KeepsRanges s₀ s) : KeepsRanges s₀ (rollWithdrawal s) := by
  have withdrawn : KeepsRanges s₀ (withdrawPedals s) := h.setServo fun _ safe => by
    dsimp only
    refine ⟨?_, ?_⟩ <;> split
    · exact (safe.pedal .sustain).letGo
    · exact safe.pedal .sustain
    · exact (safe.pedal .shift).letGo
    · exact safe.pedal .shift
  have cleared : KeepsRanges s₀ (clearLatches (withdrawPedals s)) := withdrawn.setExpression fun safe =>
    ⟨(safe.half .bass).withLatch nofun, (safe.half .treble).withLatch nofun⟩
  obtain ⟨keys, queue, e⟩ := rollWithdrawal_eq s
  rw [e]
  exact cleared.same

theorem resetContexts (h : KeepsRanges s₀ s) : KeepsRanges s₀ (resetContexts s) := h.setExpression fun safe =>
  ⟨halfSafe_atReset (safe.1.le .resetLevel), halfSafe_atReset (safe.1.le .resetLevel)⟩

end KeepsRanges

end Sys2Proof.Machine
end

section
/-! What the commands keep of the ranges, block by block (R57, R66, R142, R163, R165, R182, R201). -/

set_option Elab.async false

namespace Sys2Proof.Machine

namespace KeepsRanges

variable {s₀ s : State}

/-! ### The scan receiver and the tracker -/

theorem rollNoteOpen (h : KeepsRanges s₀ s) (c : Channel) (k : Key) (onsetLine : LineNo) (onsetTime : Time) :
    KeepsRanges s₀ (rollNoteOpen c k onsetLine onsetTime s) := by
  unfold Machine.rollNoteOpen
  dsimp only
  split
  · exact h.claim _
  · exact (h.claim _).same

theorem controlEvent (h : KeepsRanges s₀ s) (half : Half) (f : ControlFunction) (confirmed : Bool) :
    KeepsRanges s₀ (controlEvent half f confirmed s) :=
  h.setHalf half fun safe => (safe.half half).controlContext _ f confirmed

theorem sendControl (h : KeepsRanges s₀ s) (c : Channel) (e : ApertureEvent) :
    KeepsRanges s₀ (sendControl c e s) := by
  unfold Machine.sendControl
  split
  · exact h.controlEvent _ _ true
  · exact h.controlEvent _ _ false
  · exact h

theorem sendNoteClose (h : KeepsRanges s₀ s) (c : Channel) (e : ApertureEvent) :
    KeepsRanges s₀ (sendNoteClose c e s) := by
  unfold Machine.sendNoteClose
  split
  · exact (h.closeKey _ _ _).settling none
  · exact h

theorem sendNoteOpen (h : KeepsRanges s₀ s) (c : Channel) (e : ApertureEvent) :
    KeepsRanges s₀ (sendNoteOpen c e s) := by
  unfold Machine.sendNoteOpen
  split
  · exact h.rollNoteOpen _ _ _ _
  · exact h

theorem sendPedal (h : KeepsRanges s₀ s) (c : Channel) (e : ApertureEvent) : KeepsRanges s₀ (sendPedal c e s) := by
  unfold Machine.sendPedal
  split
  · exact h.rollPedalEvent _ _ fun safe => safe.settings.le .pedalEngagePos
  · exact h.rollPedalEvent _ _ fun _ => Nat.zero_le _
  · exact h

theorem sendGroup (h : KeepsRanges s₀ s) {send : Channel → ApertureEvent → State → State}
    (each : ∀ {s} c e, KeepsRanges s₀ s → KeepsRanges s₀ (send c e s)) (events : List (Channel × ApertureEvent)) :
    KeepsRanges s₀ (sendGroup send events s) :=
  List.foldlRecOn events _ h fun _ kept e _ => each e.1 e.2 kept

theorem takeSampledLine (h : KeepsRanges s₀ s) (line : LineNo) (time : Time) (states : Vector Bool 102) :
    KeepsRanges s₀ (takeSampledLine line time states s) := by
  refine sendGroup (sendGroup (sendGroup (sendGroup h.same ?_ _) ?_ _) ?_ _) ?_ _
  · exact fun c e kept => kept.sendControl c e
  · exact fun c e kept => kept.sendNoteClose c e
  · exact fun c e kept => kept.sendNoteOpen c e
  · exact fun c e kept => kept.sendPedal c e

/-- A departure from LOCKED withdraws the roll (R29, R31). -/
theorem departure (h : KeepsRanges s₀ s) (t : Tracker) :
    KeepsRanges s₀ (stopLineTimer (Machine.rollWithdrawal (emptyApertures (s.setTracker t)))) := by
  have emptied : KeepsRanges s₀ (emptyApertures (s.setTracker t)) := h.same
  exact emptied.rollWithdrawal.same

theorem stopFromLocked (h : KeepsRanges s₀ s) : KeepsRanges s₀ (stopFromLocked s) := h.departure _

theorem enterLost (h : KeepsRanges s₀ s) (reason : LossReason) (line : LineNo) :
    KeepsRanges s₀ (enterLost reason line s) := (h.departure _).raise _ _

theorem rollEnd (h : KeepsRanges s₀ s) (line : LineNo) : KeepsRanges s₀ (rollEnd line s) :=
  h.stopFromLocked.resetContexts.raise _ _

theorem seekLine (h : KeepsRanges s₀ s) (ln : CompletedLine) : KeepsRanges s₀ (seekLine ln s) := by
  unfold Machine.seekLine
  dsimp only
  split
  · exact h.same.raise _ _
  · exact h.same

theorem sendHeldLines (h : KeepsRanges s₀ s) (ln : CompletedLine) (left : Nat) :
    KeepsRanges s₀ (sendHeldLines ln left s) := by
  induction left generalizing s with
  | zero => exact h
  | succ left ih => exact ih (h.takeSampledLine _ _ _)

theorem sampleLine (h : KeepsRanges s₀ s) (ln : CompletedLine) : KeepsRanges s₀ (sampleLine ln s) := by
  unfold Machine.sampleLine
  extract_lets states marks
  split
  · exact h.rollEnd _
  · exact takeSampledLine h.same _ _ _

theorem followLine (h : KeepsRanges s₀ s) (ln : CompletedLine) : KeepsRanges s₀ (followLine ln s) := by
  have followed : KeepsRanges s₀ (s.setTracker (s.tracker.follow ln)) := h.same
  unfold Machine.followLine
  dsimp only
  split
  · exact (followed.enterLost _ _).seekLine ln
  · exact followed.sampleLine ln

theorem lockedLine (h : KeepsRanges s₀ s) (ln : CompletedLine) : KeepsRanges s₀ (lockedLine ln s) := by
  unfold Machine.lockedLine
  split
  · exact (h.enterLost _ _).seekLine ln
  · exact (h.sendHeldLines ln _).followLine ln

theorem takeLine (h : KeepsRanges s₀ s) (ln : CompletedLine) : KeepsRanges s₀ (takeLine ln s) := by
  have marked : KeepsRanges s₀ (if ln.mark then applyRestartMark s else s) := by
    rw [applyRestartMark_eq]
    split
    · exact h.same
    · exact h
  unfold Machine.takeLine
  dsimp only
  split
  · exact marked
  · exact seekLine marked.same ln
  · exact seekLine marked.same ln
  · exact lockedLine marked.same ln

theorem storeLine (h : KeepsRanges s₀ s) (c : CurrentLine) : KeepsRanges s₀ (storeLine c s) := by
  have stored : KeepsRanges s₀ (s.setScan { s.scan with current := some c }) := h.same
  unfold Machine.storeLine
  dsimp only
  split
  · exact (stored.takeLine _).same
  · exact stored

theorem takeSegment (h : KeepsRanges s₀ s) (lane : Fin 4) (line : LineNo) (payload : LanePixels) :
    KeepsRanges s₀ (takeSegment lane line payload s) := by
  unfold Machine.takeSegment
  split
  · exact h.same
  · split
    · split
      · exact h.same
      · exact storeLine h.same _
    · split
      · exact h.storeLine _
      · exact storeLine h.same _
      · exact h.same

theorem takeHeader (h : KeepsRanges s₀ s) (lane : Fin 4) (header : BitVec 24) (bytes : List Byte) :
    KeepsRanges s₀ (takeHeader lane header bytes s) := by
  unfold Machine.takeHeader
  split
  · exact h.same
  · split
    · exact h.same
    · exact h.takeSegment _ _ _

theorem checkSegment (h : KeepsRanges s₀ s) (lane : Fin 4) (bytes : List Byte) :
    KeepsRanges s₀ (checkSegment lane bytes s) := by
  unfold Machine.checkSegment
  split
  · exact h.takeHeader _ _ _
  · exact takeHeader h.same _ _ _
  · exact h.same

theorem takeBurst (h : KeepsRanges s₀ s) (lane : Fin 4) (bytes : List Byte) :
    KeepsRanges s₀ (takeBurst lane bytes s) := by
  have emptied : KeepsRanges s₀ (s.setScan { s.scan with buffers := s.scan.buffers.set lane [] }) := h.same
  unfold Machine.takeBurst
  dsimp only
  split
  · exact h.same
  · split
    · exact h.same
    · split
      · exact emptied.checkSegment lane _
      · exact h.same

theorem takeBurstOn (h : KeepsRanges s₀ s) (lane : Nat) (bytes : List Byte) :
    KeepsRanges s₀ (takeBurstOn lane bytes s) := by
  unfold Machine.takeBurstOn
  split
  · exact h.takeBurst _ bytes
  · exact h

theorem expireLineTimer (h : KeepsRanges s₀ s) : KeepsRanges s₀ (expireLineTimer s) := by
  unfold Machine.expireLineTimer
  split
  · split
    · unfold reportSilent
      split
      · exact enterLost h.same _ _
      · exact h.same
    · exact h
  · exact h

/-! ### The timers of the keys -/

theorem onKey (h : KeepsRanges s₀ s) {f : Key → State → State} (each : ∀ k, KeepsRanges s₀ (f k s)) (number : Nat) :
    KeepsRanges s₀ (onKey number f s) := by
  unfold Machine.onKey
  split
  · exact each _
  · exact h

theorem expireHeadTimer (h : KeepsRanges s₀ s) : KeepsRanges s₀ (expireHeadTimer s) := by
  unfold Machine.expireHeadTimer
  split
  · split
    · exact h.examineHead
    · exact h
  · exact h

theorem expireStrike (h : KeepsRanges s₀ s) (k : Key) : KeepsRanges s₀ (expireStrike k s) := by
  unfold Machine.expireStrike
  split
  · split
    · refine settling ?_ none
      split
      · exact h.missStrike k
      · exact h.endStrike k
    · exact h
  · exact h

theorem endGap (h : KeepsRanges s₀ s) (k : Key) : KeepsRanges s₀ (endGap k s) := by
  unfold Machine.endGap
  split
  · split
    · exact h.same
    · exact h
  · split
    · have placed (n : Note) : KeepsRanges s₀ (placeNote k n s) := h.same
      exact (placed _).settling _
    · exact h
  · exact h

theorem reachRelease (h : KeepsRanges s₀ s) (k : Key) : KeepsRanges s₀ (reachRelease k s) := by
  unfold Machine.reachRelease
  split
  · split
    · exact settling h.same none
    · exact h
  · exact h

/-! ### The steps of expression, heat and pedals -/

theorem stepExpression (h : KeepsRanges s₀ s) : KeepsRanges s₀ (stepExpression s) := by
  unfold Machine.stepExpression
  split
  · split
    · exact h.setExpression fun safe =>
        ⟨(safe.half .bass).rampContext _ _, (safe.half .treble).rampContext _ _⟩
    · exact h
  · exact h

theorem heatKeys (h : KeepsRanges s₀ s) : KeepsRanges s₀ (heatKeys s) := by
  obtain ⟨keys, figures, port, e⟩ := HeatFrame.heatSome allKeys s
  rw [heatKeys_eq, e]
  exact h.same

theorem stepHeat (h : KeepsRanges s₀ s) : KeepsRanges s₀ (stepHeat s) := by
  unfold Machine.stepHeat heatWork
  dsimp only
  split
  · split
    · split
      · exact (heatKeys h.same).reexamineHead
      · exact heatKeys h.same
    · exact h
  · exact h

theorem stepServo (h : KeepsRanges s₀ s) : KeepsRanges s₀ (stepServo s) := by
  have stepped {u : State} (kept : KeepsRanges s₀ u) :
      KeepsRanges s₀ (Machine.stepPedal .shift (Machine.stepPedal .sustain u)) :=
    (kept.stepPedal .sustain).stepPedal .shift
  unfold Machine.stepServo servoWork
  dsimp only
  split
  · split
    · split
      · exact (stepped h.same).reexamineHead
      · exact stepped h.same
    · exact h
  · exact h

theorem settleTimeout (h : KeepsRanges s₀ s) (p : Pedal) : KeepsRanges s₀ (settleTimeout p s) := by
  unfold Machine.settleTimeout
  split
  · split
    · exact (h.faultPedal p _).reexamineHead
    · exact h
  · exact h

/-! ### The hammer line -/

theorem hammerReport (h : KeepsRanges s₀ s) (k : Key) (dt : Nat) : KeepsRanges s₀ (hammerReport k dt s) := by
  by_cases plausible : 250 ≤ dt ∧ dt ≤ 50000
  · obtain ⟨voicing, unexpected, frame⟩ := hammerReport_frame (k := k) (s := s) plausible
    exact of_keyFrame h.same frame
  · rw [Machine.hammerReport, if_neg plausible]
    exact h.same

/-- A report above 1023 is discarded (R144). -/
theorem checkedPedalReport (h : KeepsRanges s₀ s) (p : Pedal) (position : Nat) :
    KeepsRanges s₀ (checkedPedalReport p position s) := by
  unfold Machine.checkedPedalReport
  split
  · exact h.same
  · rename_i within
    exact h.setPedal p fun _ safe => (safe.pedal p).reported (Nat.not_lt.mp within) _

theorem takeReport (h : KeepsRanges s₀ s) (b0 b1 b2 b3 : Byte) : KeepsRanges s₀ (takeReport b0 b1 b2 b3 s) := by
  unfold Machine.takeReport
  split
  · exact h.same
  · split
    · exact h.hammerReport _ _
    · split
      · exact h.checkedPedalReport _ _
      · split
        · exact h.checkedPedalReport _ _
        · exact h.same

theorem receiveByte (h : KeepsRanges s₀ s) (b : Byte) : KeepsRanges s₀ (receiveByte b s) := by
  unfold Machine.receiveByte
  split
  · exact h.same
  · split
    · exact h
    · split
      case h_4 => exact takeReport h.same _ _ _ _
      all_goals exact h.same

theorem completeReport (h : KeepsRanges s₀ s) (b : Byte) : KeepsRanges s₀ (completeReport b s) := by
  unfold Machine.completeReport
  split
  · exact h.receiveByte b
  · exact h

theorem endBurst (h : KeepsRanges s₀ s) : KeepsRanges s₀ (endBurst s) := by
  unfold Machine.endBurst
  dsimp only
  split
  · exact h.same
  · split <;> exact h.same

/-! ### The cue player -/

theorem applyOn (h : KeepsRanges s₀ s) (key : Key) (cueId : Byte) (level : CueLevel) (time : Time) :
    KeepsRanges s₀ (applyOn key cueId level time s) := by
  have opened : KeepsRanges s₀ (s.setCue { s.cue with phraseOpen := true }) := h.same
  unfold Machine.applyOn
  dsimp only
  split
  · exact opened.same
  · split
    · exact opened.claim _
    · exact (opened.claim _).same

theorem applyOff (h : KeepsRanges s₀ s) (key : Option Key) (cueId : Byte) (time : Time) :
    KeepsRanges s₀ (applyOff key cueId time s) := by
  cases key with
  | none => exact (h.closeAll _ _).settling none
  | some k => exact (h.closeKey _ _ _).settling none

theorem applyPedal (h : KeepsRanges s₀ s) (p : Pedal) {position : Nat} (bounded : PedalsSafe s₀ → position ≤ 1023) :
    KeepsRanges s₀ (applyPedal p position s) := by
  have set := h.cuePedal p bounded
  unfold Machine.applyPedal
  dsimp only
  split
  · exact set
  · exact set.same

theorem lowWaterTest (h : KeepsRanges s₀ s) : KeepsRanges s₀ (lowWaterTest s) := by
  unfold Machine.lowWaterTest
  split
  · exact h.raise _ _
  · exact h

theorem underrunTest (h : KeepsRanges s₀ s) : KeepsRanges s₀ (underrunTest s) := by
  have withdrawn : KeepsRanges s₀ (Machine.settling none (Machine.withdrawSource .cue) s) :=
    settling (h.withdrawSource Source.cue) none
  have closed (u : State) (kept : KeepsRanges s₀ u) :
      KeepsRanges s₀ (u.setCue { u.cue with phraseOpen := false }) := kept.same
  unfold Machine.underrunTest
  split
  · exact (closed _ withdrawn).raise _ _
  · exact h

/-- The entry applied stood in the queue, so its position is in range (R182). -/
theorem applyHead (h : KeepsRanges s₀ s) {e : CueEntry} {rest : List CueEntry} (queued : s.cue.entries = e :: rest) :
    KeepsRanges s₀ (applyHead e rest s) := by
  have taken : KeepsRanges s₀ (s.setCue { s.cue with entries := rest }) := h.setCue fun safe p position time later => by
    obtain ⟨-, -, -, positions⟩ := safe
    exact positions p position time (queued ▸ List.mem_cons_of_mem e later)
  have applied : KeepsRanges s₀ (applyEntry e (s.setCue { s.cue with entries := rest })) := by
    cases e with
    | on key cueId level time => exact taken.applyOn key cueId level time
    | off key cueId time => exact taken.applyOff key cueId time
    | endPhrase time => exact taken.same
    | pedal p position time =>
      refine taken.applyPedal p fun initial => ?_
      obtain ⟨-, -, -, positions⟩ := h.pedals initial
      exact positions p position time (queued ▸ List.mem_cons_self)
  exact applied.lowWaterTest.underrunTest

theorem serviceLoop (h : KeepsRanges s₀ s) (n : Nat) : KeepsRanges s₀ (serviceLoop n s) := by
  induction n generalizing s with
  | zero => exact h
  | succ n ih =>
    unfold Machine.serviceLoop
    split
    · exact h
    · rename_i queued
      split
      · exact ih (h.applyHead queued)
      · exact h

theorem serviceCue (h : KeepsRanges s₀ s) : KeepsRanges s₀ (serviceCue s) := h.serviceLoop _

/-! ### Resets and the image load -/

theorem fullResetState (lines : InputLines) (s : State) : KeepsRanges s (fullResetState lines s) where
  pedals _ := ⟨Settings.defaults_fits, pedalSafe_atReset, pedalSafe_atReset, nofun⟩
  expression _ := ⟨Settings.defaults_fits, halfSafe_atReset (by decide), halfSafe_atReset (by decide)⟩
  contexts _ := by
    show Contexts.atReset.roll.valid = true ∧ Contexts.atReset.cue.valid = true
    decide
  eeprom safe := eepromAtReset_wf s safe

theorem startBlocks (h : KeepsRanges s₀ s) (framed : LaneSet) {settings : Settings} (fits : settings.Fits)
    (voicing : Vector VoicingRecord 88) (outcome : ImageOutcome) :
    KeepsRanges s₀ (startBlocks framed settings voicing outcome s) where
  pedals _ := ⟨fits, pedalSafe_atReset, pedalSafe_atReset, nofun⟩
  expression _ := by
    have level : settings.get .resetLevel ≤ 1023 := SettingsSafe.le (s := { s with settings := settings }) fits .resetLevel
    exact ⟨fits, halfSafe_atReset level, halfSafe_atReset level⟩
  contexts safe := h.contexts safe
  eeprom safe := h.eeprom safe

theorem completeLoad (h : KeepsRanges s₀ s) (acked : Bool) (framed : LaneSet) :
    KeepsRanges s₀ (completeLoad acked framed s) := by
  unfold Machine.completeLoad
  split
  · exact h
  · have started := h.startBlocks framed (settingsAfterLoad_fits acked s.loader.eeprom)
      (voicingAfterLoad acked s.loader.eeprom) (loadOutcome acked s.loader.eeprom)
    unfold noticeLoad
    split
    · split
      · exact started.raise _ _
      · exact started
    · exact started.raise _ _

theorem performanceResetState (h : KeepsRanges s₀ s) : KeepsRanges s₀ (performanceResetState s) := by
  have emptied : KeepsRanges s₀ (emptyApertures ((s.setTracker s.tracker.stop).setScan (clearAssembly s.scan))) :=
    h.same
  have reset := emptied.resetContexts
  have quiet : KeepsRanges s₀ _ := reset.setServo (x := { s.pedals with
      sustain := performancePedal s.pedals.sustain
      shift := performancePedal s.pedals.shift }) fun _ safe =>
    ⟨(safe.pedal .sustain).atRest .roll, (safe.pedal .shift).atRest .roll⟩
  exact (quiet.setCue (c := { s.cue with entries := [], orderRef := none, phraseOpen := false }) fun _ => nofun).same

/-! ### The requests (R195) -/

/-- A request executed keeps what its effect keeps. -/
theorem serveRequest (h : KeepsRanges s₀ s) {act : List Byte → State → Answer}
    (effect : ∀ arguments {u}, KeepsRanges s₀ u → KeepsRanges s₀ (act arguments u).state) (code : Nat)
    (whileLoading : Bool) : KeepsRanges s₀ (serveRequest code whileLoading act s) := by
  have headless : KeepsRanges s₀ s.dropHead := h.same
  rcases serveRequest_cases s code whileLoading act with e | ⟨f, -, -, -, -, ⟨-, -, e⟩ | ⟨-, e⟩⟩ <;> rw [e]
  · exact h
  · exact h.same
  · exact (effect _ headless).same

end KeepsRanges

end Sys2Proof.Machine
end

section
/-! The requests and the step: every step keeps the settings, the pedals, the half contexts, the source contexts and the
EEPROM's cells in their ranges (R57, R66, R116, R142, R163, R165, R179). -/

set_option Elab.async false

namespace Sys2Proof.Machine

/-- The order test leaves alone a block that passes its test (R179). -/
theorem parseBlock_valid {arguments : List Byte} {c : ContextBlock} (parsed : parseBlock arguments = some c) :
    c.valid = true := by
  unfold parseBlock at parsed
  split at parsed
  · cases parsed
  · dsimp only at parsed
    split at parsed
    · rename_i valid
      cases parsed
      exact valid
    · cases parsed

/-- A PEDAL entry has ten bits of position (R182). -/
theorem parseEntry_position {cueId : Byte} {e : List Byte} {p : Pedal} {position : Nat} {time : Time}
    (parsed : parseEntry cueId e = some (.pedal p position time)) : position ≤ 1023 := by
  unfold parseEntry at parsed
  dsimp only at parsed
  split at parsed
  · obtain ⟨k, -, own⟩ := Option.map_eq_some_iff.mp parsed
    cases own
  · split at parsed
    · cases parsed
    · obtain ⟨k, -, own⟩ := Option.map_eq_some_iff.mp parsed
      cases own
  · obtain ⟨q, -, own⟩ := Option.map_eq_some_iff.mp parsed
    cases own
    omega
  · cases parsed

/-- A push keeps the positions of the PEDAL entries in range (R182, R183). -/
theorem pushEntries_positions (cueId : Byte) (es : List (List Byte)) (n : Nat) (c : CuePlayer)
    (before : ∀ p position time, CueEntry.pedal p position time ∈ c.entries → position ≤ 1023) :
    ∀ p position time, .pedal p position time ∈ (pushEntries cueId es n c).cue.entries → position ≤ 1023 := by
  induction es generalizing n c with
  | nil => exact before
  | cons e es ih =>
    unfold pushEntries
    split
    · exact before
    · rename_i entry parsed
      split
      · exact before
      · split
        · exact before
        · refine ih _ _ fun p position time queued => ?_
          rcases List.mem_append.mp queued with old | new
          · exact before p position time old
          · obtain rfl := List.mem_singleton.mp new
            exact parseEntry_position parsed

namespace KeepsRanges

variable {s₀ s : State}

/-! ### The key table (R95 to R103) -/

theorem actPlayOpen (h : KeepsRanges s₀ s) (arguments : List Byte) :
    KeepsRanges s₀ (actPlayOpen arguments s).state := by
  unfold Machine.actPlayOpen
  split
  · split
    · exact h
    · split
      · exact h
      · unfold openNote
        dsimp only
        split
        · exact h.claim _
        · exact h
        · exact h
        · exact h
  · exact h

theorem actPlayClose (h : KeepsRanges s₀ s) (arguments : List Byte) :
    KeepsRanges s₀ (actPlayClose arguments s).state := by
  unfold Machine.actPlayClose
  split
  · exact h
  · split
    · unfold closeEvery
      dsimp only [answerOk]
      exact (h.closeAll _ _).settling none
    · split
      · exact h
      · unfold closeOne
        split
        · exact (h.closeKey _ _ _).settling none
        · exact h

theorem actPlayCancel (h : KeepsRanges s₀ s) (arguments : List Byte) :
    KeepsRanges s₀ (actPlayCancel arguments s).state := by
  have cancelled (k : Key) : KeepsRanges s₀ (cancelNote k s) := h.of_keyFrame (cancelNote_frame k s)
  unfold Machine.actPlayCancel
  split
  · exact h
  · dsimp only
    split
    · exact (cancelled _).settling none
    · exact h

theorem actAllOff (h : KeepsRanges s₀ s) (arguments : List Byte) : KeepsRanges s₀ (actAllOff arguments s).state :=
  (h.silenceKeys.settling none).setServo fun _ safe => ⟨(safe.pedal .sustain).letGo, (safe.pedal .shift).letGo⟩

theorem actQuietSet (h : KeepsRanges s₀ s) (arguments : List Byte) :
    KeepsRanges s₀ (actQuietSet arguments s).state := by
  unfold Machine.actQuietSet
  split
  · rename_i on _
    cases on with
    | true => exact (settling h.silenceKeys none).same
    | false => exact h.same
  · exact h

theorem amendFlags (h : KeepsRanges s₀ s) (k : Key) (setMask clearMask : Byte) :
    KeepsRanges s₀ (amendFlags k setMask clearMask s) := by
  have changed : KeepsRanges s₀ (s.setFlags k ((s.key k).flags.amend setMask clearMask)) := h.same
  have muted (u : State) (kept : KeepsRanges s₀ u) : KeepsRanges s₀ (muteNote k u) := by
    unfold muteNote
    split
    · split
      · exact unsenseStrike kept.same k
      · exact kept
    · exact kept.same
    · exact kept
  refine timeOutIfDue ?_ k
  split
  · exact muted _ changed
  · exact changed

theorem amendLevel (h : KeepsRanges s₀ s) (k : Key) (level : Nat) : KeepsRanges s₀ (amendLevel k level s) := by
  unfold Machine.amendLevel
  split
  · exact h.same
  · exact h

theorem actKeyAmend (h : KeepsRanges s₀ s) (arguments : List Byte) :
    KeepsRanges s₀ (actKeyAmend arguments s).state := by
  have amended (k : Key) (setMask clearMask : Byte) (level : AmendLevel) :
      KeepsRanges s₀ (amendKey k setMask clearMask level s) := by
    have flagged := h.amendFlags k setMask clearMask
    cases level with
    | given level =>
      exact settling (f := fun u => Machine.amendLevel k level (Machine.amendFlags k setMask clearMask u))
        (flagged.amendLevel k level) _
    | keep => exact flagged.settling none
    | bad => exact flagged.settling none
  unfold Machine.actKeyAmend
  dsimp only
  split
  · exact h
  · split
    · exact h
    · split
      · exact h
      · exact amended _ _ _ _

theorem actKeyRetire (h : KeepsRanges s₀ s) (arguments : List Byte) :
    KeepsRanges s₀ (actKeyRetire arguments s).state := by
  unfold Machine.actKeyRetire
  split
  · exact h
  · split
    · exact h
    · exact (h.retireKey _ _).settling none

theorem actKeyRestore (h : KeepsRanges s₀ s) (arguments : List Byte) :
    KeepsRanges s₀ (actKeyRestore arguments s).state := by
  unfold Machine.actKeyRestore
  split
  · exact h
  · split
    · exact h.same
    · exact h

/-! ### The roll, the apertures and the expression unit -/

theorem actRollStart (h : KeepsRanges s₀ s) (arguments : List Byte) :
    KeepsRanges s₀ (actRollStart arguments s).state := by
  unfold Machine.actRollStart
  split
  · exact h.same
  · exact h

theorem actRollStop (h : KeepsRanges s₀ s) (arguments : List Byte) :
    KeepsRanges s₀ (actRollStop arguments s).state := by
  unfold Machine.actRollStop stopRoll
  dsimp only [answerOk]
  split
  · exact h
  · exact h.same
  · exact h.same
  · exact h.stopFromLocked

theorem actApertureClose (h : KeepsRanges s₀ s) (arguments : List Byte) :
    KeepsRanges s₀ (actApertureClose arguments s).state := by
  have blind (c : Channel) : KeepsRanges s₀ (blindRecord c s) := h.same
  have closed (c : Channel) (m : Option Mapping) : KeepsRanges s₀ (sendClose c m (blindRecord c s)) :=
    (((blind c).sendControl _ _).sendNoteClose _ _).sendPedal _ _
  unfold Machine.actApertureClose
  split
  · unfold closeAperture
    dsimp only [answerOk]
    split
    · exact blind _
    · exact blind _
    · exact closed _ _
    · exact closed _ _
  · exact h

theorem actExprSet (h : KeepsRanges s₀ s) (arguments : List Byte) : KeepsRanges s₀ (actExprSet arguments s).state := by
  unfold Machine.actExprSet
  split
  · exact h
  · rename_i half _
    split
    · exact h
    · rename_i set
      exact h.setHalf half fun safe => (safe.half half).setMode set

/-! ### The pedals (R171 to R176) -/

theorem actPedalSet (h : KeepsRanges s₀ s) (arguments : List Byte) :
    KeepsRanges s₀ (actPedalSet arguments s).state := by
  unfold Machine.actPedalSet
  split
  · exact h
  · split
    · exact h
    · rename_i within
      exact h.cuePedal _ fun _ => Nat.not_lt.mp within

/-- The target a yielded pedal takes is in range (R173). -/
theorem yieldTarget_le (safe : PedalsSafe s) (p : Pedal) : yieldTarget p s ≤ 1023 := by
  have engaged : s.setting .pedalEngagePos ≤ 1023 := safe.settings.le .pedalEngagePos
  unfold yieldTarget
  split
  · exact engaged
  · exact engaged
  · exact Nat.zero_le _

theorem actPedalYield (h : KeepsRanges s₀ s) (arguments : List Byte) :
    KeepsRanges s₀ (actPedalYield arguments s).state := by
  unfold Machine.actPedalYield
  split
  · exact h
  · rename_i p _
    split
    · exact h
    · split
      · exact h
      · exact h.setPedal p fun _ safe => (safe.pedal p).given .roll (yieldTarget_le safe p)

theorem actPedalClearFault (h : KeepsRanges s₀ s) (arguments : List Byte) :
    KeepsRanges s₀ (actPedalClearFault arguments s).state := by
  unfold Machine.actPedalClearFault
  split
  · exact h
  · rename_i p _
    split
    · exact h.setPedal p fun _ safe => (safe.pedal p).atRest _
    · exact h

/-! ### The source contexts and the cue queue -/

theorem actContextWrite (h : KeepsRanges s₀ s) (arguments : List Byte) :
    KeepsRanges s₀ (actContextWrite arguments s).state := by
  unfold Machine.actContextWrite
  split
  · rename_i source c _ parsed
    have written : KeepsRanges s₀ (s.setContext source c) := h.setContext source (parseBlock_valid parsed)
    unfold contextChange
    dsimp only [answerOk]
    split
    · exact (written.withdrawSource source).settling none
    · split
      · exact (written.silenceOutside source _ _).settling none
      · exact written
  · exact h

theorem actCuePush (h : KeepsRanges s₀ s) (arguments : List Byte) : KeepsRanges s₀ (actCuePush arguments s).state := by
  have pushed : KeepsRanges s₀
      (s.setCue (pushEntries (arguments.getD 0 0) (frameEntries arguments) 0 s.cue).cue) := h.setCue fun safe => by
    obtain ⟨-, -, -, positions⟩ := safe
    exact pushEntries_positions _ _ _ _ positions
  unfold Machine.actCuePush
  dsimp only
  split
  · exact pushed.serviceCue
  · exact pushed

theorem actCueFlush (h : KeepsRanges s₀ s) (arguments : List Byte) :
    KeepsRanges s₀ (actCueFlush arguments s).state := h.setCue fun _ => nofun

/-! ### The settings, the voicing table and the image -/

theorem settingEffect (h : KeepsRanges s₀ s) (x : Setting) (v : Nat) : KeepsRanges s₀ (settingEffect x v s) := by
  have unsensed : KeepsRanges s₀ (unsenseAll s) := by
    refine h.foldl_keys (fun k t kept => ?_) allKeys
    unfold unsenseIfSensed
    split
    · exact kept.unsenseStrike k
    · exact kept
  have timedOut : KeepsRanges s₀ (timeOutDue s) := h.foldl_keys (fun k _ kept => kept.timeOutIfDue k) allKeys
  unfold Machine.settingEffect
  split
  · split
    · exact h.same
    · exact h
  · exact timedOut.settling none
  · split
    · exact unsensed.settling none
    · exact h
  · exact h.reexamineHead
  · exact h.serviceCue
  · exact h.serviceCue
  · split
    · exact h.same
    · exact h

theorem actConfigWrite (h : KeepsRanges s₀ s) (pin : Bool) (arguments : List Byte) :
    KeepsRanges s₀ (actConfigWrite pin arguments s).state := by
  have sampled : KeepsRanges s₀ { s with servicePin := pin } := h.same
  unfold Machine.actConfigWrite
  dsimp only
  split
  · exact sampled
  · rename_i x _
    split
    · exact sampled
    · rcases writeSetting_spec x (arg32 arguments 1) { s with servicePin := pin } with
        ⟨r, -, e⟩ | ⟨range, ordered, -, -, e⟩ <;> rw [e]
      · exact sampled
      · exact (sampled.putSetting range ordered).settingEffect x _

theorem actVoiceWrite (h : KeepsRanges s₀ s) (arguments : List Byte) :
    KeepsRanges s₀ (actVoiceWrite arguments s).state := by
  unfold Machine.actVoiceWrite
  split
  · exact h
  · split
    · exact h
    · split
      · exact h.same
      · exact h

theorem failCommit (h : KeepsRanges s₀ s) (wordReached : Nat) : KeepsRanges s₀ (failCommit wordReached s) :=
  raise h.same _ _

theorem actVoiceCommit (h : KeepsRanges s₀ s) (pin acked : Bool) (arguments : List Byte) :
    KeepsRanges s₀ (actVoiceCommit pin acked arguments s).state := by
  have sampled : KeepsRanges s₀ { s with servicePin := pin } := h.same
  unfold Machine.actVoiceCommit
  dsimp only
  split
  · exact sampled
  · split
    · exact sampled
    · unfold beginCommit
      dsimp only [answerOk]
      split
      · exact sampled.same
      · exact sampled.failCommit 0

theorem completePage (h : KeepsRanges s₀ s) (acked : Bool) : KeepsRanges s₀ (completePage acked s) := by
  unfold Machine.completePage
  split
  · exact h
  · rename_i c _
    have written : KeepsRanges s₀ (s.setLoader { s.loader with eeprom := writePage c s.loader.eeprom }) :=
      h.setLoader fun safe => writePage_wf c _ safe
    unfold nextPage
    split
    · exact raise written.same _ _
    · split
      · exact written.same
      · exact written.failCommit _

theorem timeOutCommit (h : KeepsRanges s₀ s) : KeepsRanges s₀ (timeOutCommit s) := by
  unfold Machine.timeOutCommit
  split
  · exact h
  · split
    · exact h.failCommit _
    · exact h

/-! ### The port (R193 to R199) -/

theorem readRise (h : KeepsRanges s₀ s) (clocked : Nat) : KeepsRanges s₀ (readRise clocked s) := by
  unfold Machine.readRise
  split
  · exact h.same
  · split <;> exact h.same

theorem readTransaction (h : KeepsRanges s₀ s) (phase : ReadPhase) : KeepsRanges s₀ (readTransaction phase s) := by
  cases phase with
  | fall => exact h.same
  | rise clocked => exact h.readRise clocked
  | whole clocked =>
    have fallen : KeepsRanges s₀ (readFall s) := h.same
    exact fallen.readRise clocked

theorem writeTransaction (h : KeepsRanges s₀ s) (bytes : List Byte) :
    KeepsRanges s₀ (writeTransaction bytes s) := by
  unfold Machine.writeTransaction
  split
  · exact h.same
  · split
    · exact h.same
    · split
      · exact h.same
      · unfold offerFrame
        split <;> exact h.same

theorem serveBadRequest (h : KeepsRanges s₀ s) : KeepsRanges s₀ (serveBadRequest s) := by
  unfold Machine.serveBadRequest
  split
  · exact h
  · split
    · exact h
    · exact h.same

/-- A request that reads answers from the state as it is. -/
theorem serveQuery (h : KeepsRanges s₀ s) {act : List Byte → State → Answer} (code : Nat) (whileLoading : Bool)
    (reads : ∀ arguments u, ∃ pin, (act arguments u).state = { u with servicePin := pin }) :
    KeepsRanges s₀ (Machine.serveRequest code whileLoading act s) :=
  h.serveRequest (fun arguments u kept => by
    obtain ⟨pin, own⟩ := reads arguments u
    rw [own]
    exact kept.same) code whileLoading

end KeepsRanges

/-! ### The step -/

/-- Every command keeps the ranges. -/
theorem exec_keepsRanges {s s' : State} (c : Instr) (run : exec c s = .next s') : KeepsRanges s s' := by
  have came (t : Time) : KeepsRanges s (s.arrive t) := (KeepsRanges.refl s).arrive t
  have query {code : Nat} {whileLoading : Bool} {act : List Byte → State → Answer} {t : Time} :=
    (came t).serveQuery (act := act) code whileLoading
  cases c <;> obtain rfl := Host.Outcome.next.inj run
  case fullReset lines => exact .fullResetState lines s
  case imageLoadComplete t acked framed => exact (came t).completeLoad acked framed
  case segmentArrival t lane bytes => exact (came t).takeBurstOn lane bytes
  case lineTimerExpiry t => exact (came t).expireLineTimer
  case strikeQueueHeadTimer t => exact (came t).expireHeadTimer
  case strikeEndTimerExpiry t number => exact (came t).onKey (came t).expireStrike number
  case gapEnd t number => exact (came t).onKey (came t).endGap number
  case releaseTime t number => exact (came t).onKey (came t).reachRelease number
  case expressionStep t => exact (came t).stepExpression
  case heatStep t => exact (came t).stepHeat
  case pedalStep t => exact (came t).stepServo
  case pedalFault t p => exact (came t).settleTimeout p
  case pedalEventDue t p => exact (came t).applyDueEvents p
  case hubReport t b => exact (came t).completeReport b
  case hubBurstEnd t => exact (came t).endBurst
  case hubByteReceived t b => exact (came t).receiveByte b
  case cueEntryDue t => exact (came t).serviceCue
  case spiWriteTransaction t bytes => exact (came t).writeTransaction bytes
  case spiReadTransaction t phase => exact (came t).readTransaction phase
  case badRequest t => exact (came t).serveBadRequest
  case commitPageWritten t acked => exact (came t).completePage acked
  case commitAckTimeout t => exact (came t).timeOutCommit
  case status t pin => exact query fun _ _ => ⟨pin, rfl⟩
  case timeRead t => exact query fun _ u => ⟨u.servicePin, rfl⟩
  case configRead t => exact query fun _ u => ⟨u.servicePin, by unfold actConfigRead; split <;> rfl⟩
  case rollQuery t => exact query fun _ u => ⟨u.servicePin, rfl⟩
  case apertureQuery t => exact query fun _ u => ⟨u.servicePin, by unfold actApertureQuery; split <;> rfl⟩
  case exprQuery t => exact query fun _ u => ⟨u.servicePin, by unfold actExprQuery; split <;> rfl⟩
  case keyQuery t => exact query fun _ u => ⟨u.servicePin, by unfold actKeyQuery; split <;> rfl⟩
  case pedalQuery t => exact query fun _ u => ⟨u.servicePin, by unfold actPedalQuery; split <;> rfl⟩
  case contextRead t => exact query fun _ u => ⟨u.servicePin, by unfold actContextRead; split <;> rfl⟩
  case cueQuery t => exact query fun _ u => ⟨u.servicePin, rfl⟩
  case voiceRead t => exact query fun _ u => ⟨u.servicePin, by unfold actVoiceRead; split <;> rfl⟩
  case configWrite t pin => exact (came t).serveRequest (fun x _ kept => kept.actConfigWrite pin x) _ _
  case performanceReset t => exact (came t).serveRequest (fun _ _ kept => kept.performanceResetState) _ _
  case rollStart t => exact (came t).serveRequest (fun x _ kept => kept.actRollStart x) _ _
  case rollStop t => exact (came t).serveRequest (fun x _ kept => kept.actRollStop x) _ _
  case apertureClose t => exact (came t).serveRequest (fun x _ kept => kept.actApertureClose x) _ _
  case exprSet t => exact (came t).serveRequest (fun x _ kept => kept.actExprSet x) _ _
  case playOpen t => exact (came t).serveRequest (fun x _ kept => kept.actPlayOpen x) _ _
  case playClose t => exact (came t).serveRequest (fun x _ kept => kept.actPlayClose x) _ _
  case playCancel t => exact (came t).serveRequest (fun x _ kept => kept.actPlayCancel x) _ _
  case allOff t => exact (came t).serveRequest (fun x _ kept => kept.actAllOff x) _ _
  case quietSet t => exact (came t).serveRequest (fun x _ kept => kept.actQuietSet x) _ _
  case keyAmend t => exact (came t).serveRequest (fun x _ kept => kept.actKeyAmend x) _ _
  case keyRetire t => exact (came t).serveRequest (fun x _ kept => kept.actKeyRetire x) _ _
  case keyRestore t => exact (came t).serveRequest (fun x _ kept => kept.actKeyRestore x) _ _
  case pedalSet t => exact (came t).serveRequest (fun x _ kept => kept.actPedalSet x) _ _
  case pedalYield t => exact (came t).serveRequest (fun x _ kept => kept.actPedalYield x) _ _
  case pedalClearFault t => exact (came t).serveRequest (fun x _ kept => kept.actPedalClearFault x) _ _
  case contextWrite t => exact (came t).serveRequest (fun x _ kept => kept.actContextWrite x) _ _
  case cuePush t => exact (came t).serveRequest (fun x _ kept => kept.actCuePush x) _ _
  case cueFlush t => exact (came t).serveRequest (fun x _ kept => kept.actCueFlush x) _ _
  case voiceWrite t => exact (came t).serveRequest (fun x _ kept => kept.actVoiceWrite x) _ _
  case voiceCommit t pin acked => exact (came t).serveRequest (fun x _ kept => kept.actVoiceCommit pin acked x) _ _

/-- Every step keeps the ranges: of the command it executes, or of a KEY_FIND alone. -/
theorem step_keepsRanges {s s' : State} (run : step s = .next s') : KeepsRanges s s' := by
  unfold step at run
  split at run
  · obtain rfl := Host.Outcome.next.inj run
    obtain ⟨port, served⟩ := idle_frame s
    rw [served]
    exact (KeepsRanges.refl s).same
  · rename_i c rest _
    obtain ⟨pedals, expression, contexts, eeprom⟩ := exec_keepsRanges c run
    exact ⟨pedals, expression, contexts, eeprom⟩

/-- Settles O14: a step keeps the ranges, and half contexts in range give output levels in 0..1023. -/
theorem rangesKept : Obligations.RangesKept := by
  refine ⟨fun _ _ safe run => (step_keepsRanges run).pedals safe, fun _ _ safe run => ?_,
    fun _ _ safe run => (step_keepsRanges run).contexts safe, fun _ _ safe run => (step_keepsRanges run).eeprom safe⟩
  have kept := (step_keepsRanges run).expression safe
  exact ⟨kept, kept.output_le .bass, kept.output_le .treble⟩

end Sys2Proof.Machine
end

section
/-! The servo of the pedals: PEDAL_STEP, PEDAL_FAULT and PEDAL_EVENT_DUE (09_pedals R167 to R170, 07_drive_power
R133). -/

namespace Sys2Proof.Machine

/-! ### One servo step of a pedal (R169, R170) -/

section
variable {s : State} {r : PedalRecord}

theorem withinDeadband_iff : withinDeadband s r = true ↔ (pedalError r).natAbs ≤ s.setting .pedalDeadband :=
  decide_eq_true_iff

theorem withinDeadband_of_outside (outside : s.setting .pedalDeadband < (pedalError r).natAbs) :
    withinDeadband s r = false :=
  decide_eq_false (Nat.not_le.mpr outside)

theorem settleExceeded_iff {start : Time} :
    settleExceeded s start = true ↔ 1000 * (s.setting .pedalSettle : Int) < clockDiff s.clock start :=
  decide_eq_true_iff

/-- A move that starts now has not lasted (R170). -/
theorem settleExceeded_now : settleExceeded s s.clock = false := by
  refine decide_eq_false ?_
  rw [clockDiff, BitVec.sub_self]
  exact Int.not_lt.mpr (Int.mul_nonneg (by decide) (Int.natCast_nonneg _))

theorem moveStart_of_still (still : r.mode = .idle ∨ r.mode = .holding) : moveStart s r = s.clock := by
  rcases still with mode | mode <;> rw [moveStart, mode]

theorem moveStart_of_moving {start : Time} (moving : r.mode = .moving start) : moveStart s r = start := by
  rw [moveStart, moving]

theorem steppedPedal_of_fault (fault : r.mode = .fault) : steppedPedal s r = r := if_pos fault

theorem steppedPedal_of_within (sound : r.mode ≠ .fault) (within : withinDeadband s r = true) :
    steppedPedal s r = if r.target = 0 then { r with mode := .idle, drive := 0 }
      else { r with mode := .holding, drive := givenDrive s r (pedalRequest s r) } := by
  have none : givenDrive s r 0 = 0 := Nat.le_zero.mp (givenDrive_le s r 0)
  rw [steppedPedal, if_neg sound, if_pos within, none]

theorem steppedPedal_of_outside (sound : r.mode ≠ .fault) (outside : withinDeadband s r = false) :
    steppedPedal s r = if settleExceeded s (moveStart s r) then { r with mode := .fault, drive := 0, events := [] }
      else { r with mode := .moving (moveStart s r), drive := givenDrive s r (pedalRequest s r) } := by
  rw [steppedPedal, if_neg sound, outside]
  rfl

/-- What a servo step leaves of a pedal that it sends to MOVING or HOLDING: the drive alone is new (R133, R169). -/
theorem steppedPedal_drive (sound : r.mode ≠ .fault)
    (driven : (∃ start, (steppedPedal s r).mode = .moving start) ∨ (steppedPedal s r).mode = .holding) :
    (steppedPedal s r).drive = givenDrive s r (pedalRequest s r) := by
  cases within : withinDeadband s r with
  | true =>
    rw [steppedPedal_of_within sound within] at driven ⊢
    split at driven
    · rcases driven with ⟨_, idle⟩ | idle <;> cases idle
    · rename_i pressed
      rw [if_neg pressed]
  | false =>
    rw [steppedPedal_of_outside sound within] at driven ⊢
    split at driven
    · rcases driven with ⟨_, fault⟩ | fault <;> cases fault
    · rename_i inTime
      rw [if_neg inTime]

theorem steppedPedal_kept : (steppedPedal s r).owner = r.owner ∧ (steppedPedal s r).target = r.target ∧
    (steppedPedal s r).position = r.position ∧ (steppedPedal s r).lastReport = r.lastReport := by
  unfold steppedPedal
  split
  · exact ⟨rfl, rfl, rfl, rfl⟩
  · split <;> split <;> exact ⟨rfl, rfl, rfl, rfl⟩

/-- The request of R169 within the units the pedal may have (R133). -/
theorem givenDrive_request : (givenDrive s r (pedalRequest s r) : Int) =
    min (max 0 (min 1023 (((s.setting .pedalHold * r.target / 1023 : Nat) : Int)
        + (s.setting .pedalGain : Int) * pedalError r / 8)))
      ((r.drive + (s.setting .poolCapacity - claimSum s) : Nat) : Int) := by
  have clamped (x : Int) : (clampNat 1023 x : Int) = max 0 (min 1023 x) := by
    unfold clampNat
    omega
  rw [givenDrive, limitedClaim, Nat.cast_min, pedalRequest, clamped]
  rfl

end

/-! ### The notices of a step (R170) -/

theorem State.raise_frame (s : State) (kind : NoticeKind) (fields : List Byte) :
    ∃ port, s.raise kind fields = { s with port := port } := by
  unfold State.raise
  split <;> exact ⟨_, rfl⟩

/-- The notice of a pedal that a servo step sends to FAULT. -/
def stepNotices (p : Pedal) (s : State) : List Notice :=
  if stepFaults s (s.pedal p) then
    [{ kind := .pedalFault, lost := false, time := s.clock
       fields := faultFields p (s.pedal p) (moveStart s (s.pedal p)) }]
  else []

section
variable {p : Pedal} {s : State}

theorem stepNotices_length_le : (stepNotices p s).length ≤ 1 := by
  unfold stepNotices
  split
  · exact Nat.le_refl 1
  · exact Nat.zero_le 1

theorem stepNotices_of_moving {start : Time} (moving : (s.pedal p).mode = .moving start) : stepNotices p s =
    if s.setting .pedalDeadband < (pedalError (s.pedal p)).natAbs ∧
        1000 * (s.setting .pedalSettle : Int) < clockDiff s.clock start
    then [{ kind := .pedalFault, lost := false, time := s.clock, fields := faultFields p (s.pedal p) start }]
    else [] := by
  have faults : stepFaults s (s.pedal p) = true ↔ s.setting .pedalDeadband < (pedalError (s.pedal p)).natAbs ∧
      1000 * (s.setting .pedalSettle : Int) < clockDiff s.clock start := by
    simp [stepFaults, moving, moveStart_of_moving moving, withinDeadband, settleExceeded]
  rw [stepNotices, moveStart_of_moving moving]
  exact if_congr faults rfl rfl

theorem stepNotices_of_other (other : ∀ start, (s.pedal p).mode ≠ .moving start) : stepNotices p s = [] := by
  refine if_neg ?_
  cases mode : (s.pedal p).mode with
  | moving start => exact absurd mode (other start)
  | fault => simp [stepFaults, mode]
  | idle => simp [stepFaults, moveStart_of_still (.inl mode), settleExceeded_now]
  | holding => simp [stepFaults, moveStart_of_still (.inr mode), settleExceeded_now]

/-- A servo step of one pedal: its record and the notice of its fault. -/
theorem stepPedal_frame : ∃ port, stepPedal p s =
      { s.setPedal p (steppedPedal s (s.pedal p)) with port := port } ∧
    (s.port.notices.length < 32 → port = { s.port with notices := s.port.notices ++ stepNotices p s }) := by
  rw [stepPedal_eq, stepNotices]
  split
  · by_cases room : s.port.notices.length < 32
    · rw [State.raise_of_room _ _ _ (by rw [State.setPedal_port]; exact room)]
      cases p <;> exact ⟨_, rfl, fun _ => rfl⟩
    · obtain ⟨port, raised⟩ := State.raise_frame (s.setPedal p (steppedPedal s (s.pedal p))) .pedalFault
        (faultFields p (s.pedal p) (moveStart s (s.pedal p)))
      exact ⟨port, raised, fun holds => absurd holds room⟩
  · refine ⟨s.port, by cases p <;> rfl, fun _ => ?_⟩
    rw [List.append_nil]

end

/-! ### PEDAL_STEP (R168 to R170) -/

/-- The servo after a step: SUSTAIN first, SHIFT with the units that SUSTAIN left, the next step in 1000 us. -/
def steppedServo (s : State) (next : Time) : PedalServo :=
  { sustain := steppedPedal s s.pedals.sustain
    shift := steppedPedal (s.setPedal .sustain (steppedPedal s s.pedals.sustain)) s.pedals.shift
    nextStep := some next }

theorem servoWork_spec (s : State) : servoWork s = reexamineHead (stepPedal .shift (stepPedal .sustain s)) ∨
    servoWork s = stepPedal .shift (stepPedal .sustain s) := by
  unfold servoWork
  dsimp only
  split
  · exact .inl rfl
  · exact .inr rfl

/-- The claims once the SUSTAIN pedal has its new drive (R129). -/
theorem claimSum_setSustain (s : State) (r : PedalRecord) :
    claimSum (s.setPedal .sustain r) = claimSum s - s.pedals.sustain.drive + r.drive := by
  show (allKeys.map (driveLevel s)).sum + r.drive + s.pedals.shift.drive = _
  unfold claimSum
  omega

/-- Both pedals stepped in turn: the servo and the notices of R170. -/
theorem stepPedals_eq (s : State) (next : Time) : ∃ port,
    stepPedal .shift (stepPedal .sustain { s with pedals := { s.pedals with nextStep := some next } }) =
        { s with port := port, pedals := steppedServo s next } ∧
      (s.port.notices.length < 31 → port = { s.port with
        notices := s.port.notices ++ (stepNotices .sustain s ++ stepNotices .shift s) }) := by
  obtain ⟨port, first, noticed⟩ := stepPedal_frame (p := .sustain)
    (s := { s with pedals := { s.pedals with nextStep := some next } })
  obtain ⟨port', second, noticed'⟩ := stepPedal_frame (p := .shift)
    (s := stepPedal .sustain { s with pedals := { s.pedals with nextStep := some next } })
  rw [first] at second noticed'
  refine ⟨port', by rw [first, second]; rfl, fun room => ?_⟩
  obtain rfl : port = { s.port with notices := s.port.notices ++ stepNotices .sustain s } :=
    noticed (Nat.lt_succ_of_lt room)
  have length := stepNotices_length_le (p := .sustain) (s := s)
  rw [← List.append_assoc]
  refine noticed' ?_
  show (s.port.notices ++ stepNotices .sustain s).length < 32
  rw [List.length_append]
  omega

/-- A due step: both pedals stepped, their notices, and launches of the keys that waited for the units. -/
theorem stepServo_of_due {s : State} {due : Time} (running : s.pedals.nextStep = some due)
    (now : reached s.clock due = true) : ∃ keys queue port, stepServo s =
        { s with keys := keys, queue := queue, port := port, pedals := steppedServo s (due + 1000) } ∧
      (∀ k : Key, isPending (s.key k).phase = false → keys[k] = s.key k) ∧
      (s.port.notices.length < 31 → port = { s.port with
        notices := s.port.notices ++ (stepNotices .sustain s ++ stepNotices .shift s) }) := by
  obtain ⟨port, after, room⟩ := stepPedals_eq s (due + 1000)
  rw [stepServo, running]
  dsimp only
  rw [if_pos now]
  rcases servoWork_spec { s with pedals := { s.pedals with nextStep := some (due + 1000) } } with work | work
  · obtain ⟨keys, queue, examined, kept⟩ := reexamineHead_frame
      { s with port := port, pedals := steppedServo s (due + 1000) }
    exact ⟨keys, queue, port, work.trans ((congrArg reexamineHead after).trans examined), kept, room⟩
  · exact ⟨s.keys, s.queue, port, work.trans after, fun _ _ => rfl, room⟩

/-- Each pedal is stepped under the settings and the clock as they were, SHIFT with the claims that SUSTAIN left. -/
theorem steppedServo_pedal {s s' : State} {next : Time} (servo : s'.pedals = steppedServo s next) (p : Pedal) :
    ∃ x : State, s'.pedal p = steppedPedal x (s.pedal p) ∧ x.clock = s.clock ∧ x.settings = s.settings ∧
      claimSum x = match p with
        | .sustain => claimSum s
        | .shift => claimSum s - s.pedals.sustain.drive + s'.pedals.sustain.drive := by
  cases p with
  | sustain => exact ⟨s, by rw [State.pedal, servo]; rfl, rfl, rfl, rfl⟩
  | shift =>
    refine ⟨s.setPedal .sustain (steppedPedal s s.pedals.sustain), by rw [State.pedal, servo]; rfl, rfl, rfl, ?_⟩
    rw [claimSum_setSustain, servo]
    rfl

/-- Settles O46: each pedal is stepped by `steppedPedal`, SHIFT with the claims that SUSTAIN left. -/
theorem pedalStepCompletes : Obligations.PedalStepCompletes := by
  intro s a t due came running now
  obtain ⟨keys, queue, port, stepped, kept, room⟩ := stepServo_of_due running now
  refine ⟨_, congrArg Host.Outcome.next ((congrArg stepServo came).trans stepped), rfl, rfl, rfl, rfl, rfl, rfl, rfl,
    fun few => ?_, kept, fun p err error => ?_⟩
  · rw [room few]
    have notices (p : Pedal) : stepNotices p a = match (a.pedal p).mode with
        | .moving start =>
          if a.setting .pedalDeadband < (pedalError (a.pedal p)).natAbs ∧
            1000 * (a.setting .pedalSettle : Int) < clockDiff a.clock start
          then [{ kind := .pedalFault, lost := false, time := a.clock, fields := faultFields p (a.pedal p) start }]
          else []
        | _ => [] := by
      cases mode : (a.pedal p).mode with
      | moving start => exact stepNotices_of_moving mode
      | idle | holding | fault => exact stepNotices_of_other (by rw [mode]; exact nofun)
    have joined : stepNotices .sustain a ++ stepNotices .shift a =
        ([.sustain, .shift] : List Pedal).flatMap (stepNotices · a) := by simp
    rw [joined, funext notices]
    rfl
  · subst error
    obtain ⟨x, own, clock, settings, claims⟩ := steppedServo_pedal (s' := { a with
      keys := keys, queue := queue, port := port, pedals := steppedServo a (due + 1000) }) rfl p
    have setting (y : Setting) : x.setting y = a.setting y := congrArg (Settings.get · y) settings
    obtain ⟨owner, target, position, lastReport⟩ := steppedPedal_kept (s := x) (r := a.pedal p)
    rw [own]
    refine ⟨owner, target, position, lastReport, steppedPedal_of_fault, fun sound within => ?_,
      fun sound outside => ?_, fun sound driven => ?_⟩
    · have close : withinDeadband x (a.pedal p) = true := withinDeadband_iff.mpr (by rw [setting]; exact within)
      rw [steppedPedal_of_within sound close]
      refine ⟨by split <;> rfl, fun released => ?_, fun pressed => ?_⟩
      · rw [if_pos released]
        exact ⟨rfl, rfl⟩
      · rw [if_neg (Nat.ne_of_gt pressed)]
    · have far : withinDeadband x (a.pedal p) = false := withinDeadband_of_outside (by rw [setting]; exact outside)
      rw [steppedPedal_of_outside sound far]
      refine ⟨fun start moving => ?_, fun still => ?_⟩
      · rw [moveStart_of_moving moving]
        refine ⟨fun late => ?_, fun inTime => ?_⟩
        · rw [if_pos (settleExceeded_iff.mpr (by rw [setting, clock]; exact late))]
          exact ⟨rfl, rfl, rfl⟩
        · rw [if_neg (mt settleExceeded_iff.mp (by rw [setting, clock]; exact Int.not_lt.mpr inTime))]
          exact ⟨rfl, rfl⟩
      · rw [moveStart_of_still still, settleExceeded_now, ← clock]
        exact ⟨rfl, rfl⟩
    · rw [steppedPedal_drive sound driven, givenDrive_request, setting, setting, setting, claims]
      cases p <;> rfl

/-! ### PEDAL_FAULT (R170) -/

/-- Settles O47: PEDAL_FAULT is the entry to FAULT with its notice, and the examination of a WAITING head. -/
theorem pedalFaultCompletes : Obligations.PedalFaultCompletes := by
  intro s a t due start p came running now moving outside late room
  have servo : servoDue a = true := by
    rw [servoDue, running]
    exact now
  have timedOut : settleTimeout p a = reexamineHead (faultPedal p start a) := by
    have beyond : withinDeadband a (a.pedal p) = false := withinDeadband_of_outside outside
    rw [settleTimeout, moving]
    dsimp only
    rw [servo, beyond, settleExceeded_iff.mpr late]
    rfl
  have faulted : faultPedal p start a =
      { a.setPedal p { a.pedal p with mode := .fault, drive := 0, events := [] } with
        port := { a.port with notices := a.port.notices ++ [{ kind := .pedalFault, lost := false, time := a.clock
                                                              fields := faultFields p (a.pedal p) start }] } } := by
    rw [faultPedal, State.raise_of_room _ _ _ (by rw [State.setPedal_port]; exact room)]
    cases p <;> rfl
  obtain ⟨keys, queue, examined, kept⟩ := reexamineHead_frame (faultPedal p start a)
  refine ⟨reexamineHead (faultPedal p start a), ?_, ?_⟩
  · show Host.Outcome.next (settleTimeout p (s.arrive t)) = _
    rw [came, timedOut]
  rw [examined]
  rw [faulted] at kept ⊢
  cases p
  · exact ⟨rfl, fun q other => by cases q <;> [exact absurd rfl other; rfl], rfl, rfl, kept, rfl, rfl, rfl⟩
  · exact ⟨rfl, fun q other => by cases q <;> [rfl; exact absurd rfl other], rfl, rfl, kept, rfl, rfl, rfl⟩

/-! ### PEDAL_EVENT_DUE (R167) -/

/-- Settles O48: the head of the queue is drained up to its last entry whose time has come. -/
theorem pedalEventsApplied : Obligations.PedalEventsApplied := by
  intro s a t p due later e came queue gone now ahead
  have drained : drainEvents a.clock (a.pedal p).events (a.pedal p).target = (later, e.target) := by
    rw [queue, drainEvents_append a.clock (due ++ [e]) later _ ?_ ahead, List.getLast?_append]
    · rfl
    · intro x listed
      rcases List.mem_append.mp listed with earlier | last
      · exact gone x earlier
      · exact List.mem_singleton.mp last ▸ now
  show Host.Outcome.next (applyDueEvents p (s.arrive t)) = _
  rw [came, applyDueEvents, drained]

end Sys2Proof.Machine
end

section
/-! The requests PEDAL_SET, PEDAL_YIELD and PEDAL_CLEAR_FAULT (09_pedals R171, R173, R176). -/

namespace Sys2Proof.Machine

/-! ### The pedal a byte names -/

theorem pedalOfNumber_byteOf (p : Pedal) : pedalOfNumber (byteOf (pedalNumber p)).toNat = some p := by
  cases p <;> rfl

theorem pedalOfNumber_of_other {n : Nat} (other : 2 ≤ n) : pedalOfNumber n = none := by
  obtain ⟨m, rfl⟩ := Nat.exists_eq_add_of_le' other
  rfl

/-! ### A request with an effect on one pedal (R195) -/

section
variable {c : Instr} {s a : State} {t : Time} {code : Nat} {act : List Byte → State → Answer} {tag : Byte}
  {arguments data : List Byte}

/-- A request that gives a pedal a new record is answered OK, and nothing else changes. -/
theorem exec_of_setPedal (served : exec c s = .next (serveRequest code false act (s.arrive t)))
    (arrived : s.arrive t = a) (head : RequestAtHead a code tag arguments)
    (allowed : argumentsAllowed code arguments.length = true) {p : Pedal} {r : PedalRecord}
    (answer : act arguments a.dropHead = answerOk (a.dropHead.setPedal p r) data) :
    exec c s = .next { a.setPedal p r with port := answeredPort a.port code tag .ok data } := by
  rw [exec_of_effect served arrived head allowed answer]
  cases p <;> rfl

end

/-! ### PEDAL_SET (R171) -/

section
variable {p : Pedal} {position : Nat} {s : State}

theorem cuePedal_of_fault (fault : (s.pedal p).mode = .fault) : cuePedal p position s = (s, .state) := if_pos fault

theorem cuePedal_of_outranked (sound : (s.pedal p).mode ≠ .fault) (owner : (s.pedal p).owner = .roll)
    (below : s.contexts.cue.priority < s.contexts.roll.priority) : cuePedal p position s = (s, .owned) :=
  (if_neg sound).trans (if_pos ⟨owner, below⟩)

theorem cuePedal_of_entitled (sound : (s.pedal p).mode ≠ .fault)
    (entitled : (s.pedal p).owner = .cue ∨ s.contexts.roll.priority ≤ s.contexts.cue.priority) :
    cuePedal p position s =
      (s.setPedal p { s.pedal p with owner := .cue, events := [], target := position }, .ok) := by
  refine (if_neg sound).trans (if_neg ?_)
  rintro ⟨roll, below⟩
  rcases entitled with cue | above
  · rw [roll] at cue
    cases cue
  · exact Nat.not_le.mpr below above

end

section
variable {pedal : Byte} {position : Nat} {s : State}

theorem actPedalSet_of_pedal {p : Pedal} (named : pedal = byteOf (pedalNumber p)) (within : position ≤ 1023) :
    actPedalSet (pedal :: field16 position) s =
      { state := (cuePedal p position s).1, result := (cuePedal p position s).2, data := [] } := by
  have number : pedalOfNumber (argByte (pedal :: field16 position) 0) = some p := named ▸ pedalOfNumber_byteOf p
  have read : arg16 (pedal :: field16 position) 1 = position := arg16_append [pedal] [] position (by omega)
  rw [actPedalSet, number]
  dsimp only
  rw [read, if_neg (Nat.not_lt.mpr within)]

theorem actPedalSet_of_refused (range : position < 65536) (out : 2 ≤ pedal.toNat ∨ 1023 < position) :
    actPedalSet (pedal :: field16 position) s = refuse s .badArgument := by
  have read : arg16 (pedal :: field16 position) 1 = position := arg16_append [pedal] [] position range
  rw [actPedalSet]
  split
  · rfl
  · rename_i p named
    have low : pedal.toNat < 2 := by
      by_contra other
      have unnamed : pedalOfNumber (argByte (pedal :: field16 position) 0) = none :=
        pedalOfNumber_of_other (Nat.not_lt.mp other)
      rw [unnamed] at named
      cases named
    rw [read, if_pos (by omega)]

end

/-! ### PEDAL_YIELD (R173) -/

/-- An aperture that is OPEN or BRIDGING holds the pedal down (R173). -/
theorem yieldTarget_eq (p : Pedal) (s : State) : yieldTarget p s =
    if 2 ≤ lifeNumber (s.apertures.records[pedalChannel p]).life then s.setting .pedalEngagePos else 0 := by
  unfold yieldTarget
  cases (s.apertures.records[pedalChannel p]).life <;> rfl

section
variable {p : Pedal} {s : State}

theorem actPedalYield_of_fault (fault : (s.pedal p).mode = .fault) :
    actPedalYield [byteOf (pedalNumber p)] s = refuse s .state := by
  rw [actPedalYield, argByte, List.getD_cons_zero, pedalOfNumber_byteOf]
  exact if_pos fault

theorem actPedalYield_of_roll (sound : (s.pedal p).mode ≠ .fault) (owner : (s.pedal p).owner = .roll) :
    actPedalYield [byteOf (pedalNumber p)] s = answerOk s [] := by
  rw [actPedalYield, argByte, List.getD_cons_zero, pedalOfNumber_byteOf]
  dsimp only
  rw [if_neg sound, owner]

theorem actPedalYield_of_cue (sound : (s.pedal p).mode ≠ .fault) (owner : (s.pedal p).owner = .cue) :
    actPedalYield [byteOf (pedalNumber p)] s = answerOk (yieldPedal p s) (field16 (yieldTarget p s)) := by
  rw [actPedalYield, argByte, List.getD_cons_zero, pedalOfNumber_byteOf]
  dsimp only
  rw [if_neg sound, owner]

/-! ### PEDAL_CLEAR_FAULT (R176) -/

theorem actPedalClearFault_of_fault (fault : (s.pedal p).mode = .fault) :
    actPedalClearFault [byteOf (pedalNumber p)] s = answerOk (clearFault p s) [] := by
  rw [actPedalClearFault, argByte, List.getD_cons_zero, pedalOfNumber_byteOf]
  exact if_pos fault

theorem actPedalClearFault_of_sound (sound : (s.pedal p).mode ≠ .fault) :
    actPedalClearFault [byteOf (pedalNumber p)] s = refuse s .state := by
  rw [actPedalClearFault, argByte, List.getD_cons_zero, pedalOfNumber_byteOf]
  exact if_neg sound

end

/-- Settles O49: each request by the state and the owner of its pedal. -/
theorem pedalRequestsComplete : Obligations.PedalRequestsComplete := by
  refine ⟨fun s a t tag pedal position came range head => ⟨fun out => ?unset, fun p named within => ?set⟩,
    fun s a t tag p c target came channel aimed => ⟨fun head => ?yield, fun head => ?clear⟩⟩
  case unset => exact exec_of_answer rfl came head rfl (actPedalSet_of_refused range out)
  case set =>
    rw [← State.dropHead_pedal]
    have answer := actPedalSet_of_pedal (s := a.dropHead) named within
    refine ⟨fun fault => ?fault, fun sound owner below => ?owned, fun sound entitled => ?taken⟩
    case fault =>
      rw [cuePedal_of_fault fault] at answer
      exact exec_of_answer rfl came head rfl answer
    case owned =>
      rw [cuePedal_of_outranked (s := a.dropHead) sound owner below] at answer
      exact exec_of_answer rfl came head rfl answer
    case taken =>
      rw [cuePedal_of_entitled (s := a.dropHead) sound entitled] at answer
      exact exec_of_setPedal rfl came head rfl answer
  case yield =>
    have yielded : yieldTarget p a.dropHead = target := by
      rw [yieldTarget_eq, aimed]
      subst channel
      cases p <;> rfl
    rw [← State.dropHead_pedal]
    refine ⟨fun fault => ?fault, fun sound owner => ?roll, fun sound owner => ?cue⟩
    case fault => exact exec_of_answer rfl came head rfl (actPedalYield_of_fault fault)
    case roll => exact exec_of_answer rfl came head rfl (actPedalYield_of_roll sound owner)
    case cue =>
      refine exec_of_setPedal rfl came head rfl ?_
      rw [actPedalYield_of_cue sound owner, yieldPedal, yielded]
  case clear =>
    rw [← State.dropHead_pedal]
    refine ⟨fun sound => ?sound, fun fault => ?fault⟩
    case sound => exact exec_of_answer rfl came head rfl (actPedalClearFault_of_sound sound)
    case fault => exact exec_of_setPedal rfl came head rfl (actPedalClearFault_of_fault fault)

end Sys2Proof.Machine
end

section
/-! CUE_ENTRY_DUE: the application of the entry at the head of the cue queue, low water and the underrun
(10_source_contexts R182 to R188). -/

namespace Sys2Proof.Machine

/-! ### An ON entry (R185) -/

/-- The claim of an ON entry on its folded key. -/
def onClaim (k : Key) (cueId : Byte) (level : CueLevel) (time : Time) : Claim where
  key := k
  claimant := cueOwner cueId
  sound := time
  level := cueLevelFrom level

/-- A phrase is open from the moment an ON entry is applied. -/
def openPhrase (s : State) : State := s.setCue { s.cue with phraseOpen := true }

section
variable {s u : State} {key k : Key} {cueId : Byte} {level : CueLevel} {time : Time}

theorem applyOn_eq : applyOn key cueId level time s =
    if !s.contexts.cue.enabled || !inKeyRange s.contexts.cue (transposedKey s.contexts.cue (keyNumber key)) then
      countDropped (openPhrase s)
    else
      match (claim (onClaim (transposedKey s.contexts.cue (keyNumber key)) cueId level time) (openPhrase s)).2 with
      | .taken _ => (claim (onClaim (transposedKey s.contexts.cue (keyNumber key)) cueId level time) (openPhrase s)).1
      | _ => countDropped
          (claim (onClaim (transposedKey s.contexts.cue (keyNumber key)) cueId level time) (openPhrase s)).1 := rfl

theorem applyOn_of_barred (folded : k = transposedKey s.contexts.cue (keyNumber key))
    (barred : s.contexts.cue.enabled = false ∨ inKeyRange s.contexts.cue k = false) :
    applyOn key cueId level time s = countDropped (openPhrase s) := by
  rw [applyOn_eq, ← folded, if_pos]
  rcases barred with disabled | outside
  · rw [disabled]
    rfl
  · rw [outside, Bool.or_comm]
    rfl

section
variable (enabled : s.contexts.cue.enabled = true) (folded : k = transposedKey s.contexts.cue (keyNumber key))
  (inside : inKeyRange s.contexts.cue k = true)
include enabled folded inside

theorem applyOn_of_taken {m : Nat} (claimed : claim (onClaim k cueId level time) (openPhrase s) = (u, .taken m)) :
    applyOn key cueId level time s = u := by
  rw [applyOn_eq, ← folded, enabled, inside, claimed]
  rfl

/-- A RETIRED key takes no note, nor one whose owner has the higher priority. -/
theorem applyOn_of_refused (refused : isRetired (s.key k).phase = true ∨
      ∃ o, s.owner k = some o ∧ s.contexts.cue.priority < (s.context o.source).priority) :
    applyOn key cueId level time s = countDropped (openPhrase s) := by
  rw [applyOn_eq, ← folded, enabled, inside]
  rcases refused with retired | ⟨o, owner, outranked⟩
  · rw [claim_of_retired (c := onClaim k cueId level time) (s := openPhrase s) enabled retired]
    rfl
  · have refused : passesPriority (onClaim k cueId level time) (openPhrase s) = false := by
      rw [passesPriority_of_owner (c := onClaim k cueId level time) (s := openPhrase s) owner]
      exact decide_eq_false (Nat.not_le.mpr outranked)
    rw [claim_of_outranked (c := onClaim k cueId level time) (s := openPhrase s) enabled (alive_of_owner owner) refused]
    rfl

end

/-- The level of a cue note: its own, or the output level of the key's half (R86). -/
def CueNoteLevel (s : State) (k : Key) (level : CueLevel) (stored : Nat) : Prop :=
  level = .given stored ∨
    level = .follow ∧ stored = s.output (if keyNumber k ≤ s.setting .splitKey then .bass else .treble)

theorem levelNote_onClaim {stored : Nat} (levelled : CueNoteLevel s k level stored) :
    levelNote (onClaim k cueId level time) s =
      (s, { claimant := cueOwner cueId, sound := time, level := stored, release := none }) := by
  obtain rfl | ⟨rfl, rfl⟩ := levelled <;> rfl

section
variable {n : Note} {stored : Nat} (enabled : s.contexts.cue.enabled = true)
  (folded : k = transposedKey s.contexts.cue (keyNumber key)) (inside : inKeyRange s.contexts.cue k = true)
  (levelled : CueNoteLevel s k level stored)
include enabled folded inside levelled

/-- On an IDLE key, with nothing queued, the note is PENDING and TIMED (R83, R86, R118). -/
theorem applyOn_of_idle {v : StrikeValues} (idle : (s.key k).phase = .idle)
    (note : n = { claimant := cueOwner cueId, sound := time
                  level := min 1023 (stored * s.contexts.cue.levelScale / 256), release := none })
    (values : v = strikeValuesOf (s.setting .velMin) (s.setting .velMax) (s.voice k) s.pedals.shift.position n.level
      time)
    (empty : s.queue.entries = []) (ahead : ¬ reached s.clock v.planned = true) :
    applyOn key cueId level time s = { s with
      keys := s.keys.set k { s.key k with phase := .pending n v }
      queue := { entries := [{ key := k, planned := v.planned }], status := .timed }
      cue := { s.cue with phraseOpen := true } } := by
  have levelNoted := levelNote_onClaim (s := openPhrase s) (cueId := cueId) (time := time) levelled
  have placed := takeClaim_of_free (c := onClaim k cueId level time) levelNoted
    (by show phaseNumber (s.key k).phase ≤ 1; rw [idle]; exact Nat.zero_le 1)
  have entered : takeClaim (onClaim k cueId level time) (openPhrase s) = enterPending k n v (openPhrase s) := by
    rw [placed, values, note]
    rfl
  rw [applyOn_of_taken enabled folded inside
    (claim_of_idle (c := onClaim k cueId level time) (s := openPhrase s) enabled idle)]
  exact settling_enterPending entered (by show withoutKey k s.queue.entries = []; rw [empty]; rfl) ahead

/-- On a key that sounds or waits for its gap the note is stored (R84, R85). -/
theorem applyOn_of_busy (busy : 2 ≤ phaseNumber (s.key k).phase) (alive : isRetired (s.key k).phase = false)
    (passes : passesPriority (onClaim k cueId level time) s = true)
    (note : n = { claimant := cueOwner cueId, sound := time, level := stored, release := none })
    (quiet : s.queue.status ≠ .waiting) (other : ∀ e, s.queue.entries.head? = some e → e.key ≠ k) :
    applyOn key cueId level time s = { s with
      keys := s.keys.set k { s.key k with phase := claimedPhase s.clock (gapEndNow s k) n (s.key k).phase }
      cue := { s.cue with phraseOpen := true } } := by
  have levelNoted := levelNote_onClaim (s := openPhrase s) (cueId := cueId) (time := time) levelled
  have stored := takeClaim_of_busy (c := onClaim k cueId level time) levelNoted busy
  rw [applyOn_of_taken enabled folded inside
    (claim_of_passing (c := onClaim k cueId level time) (s := openPhrase s) enabled alive passes)]
  refine (settling_of_other_head (s := openPhrase s) (by rw [stored]; rfl) quiet other).trans ?_
  rw [stored, note]
  rfl

end
end

/-! ### An OFF entry (R87, R88, R185) -/

/-- A release stored on a key with an owner is the one of R88. -/
theorem releasedPhase_of_stored {now gapEnd release : Time} {p p' : KeyPhase} {o : Owner}
    (owner : phaseOwner p = some o) (stored : ReleaseStored now gapEnd release p p') :
    p' = releasedPhase now gapEnd release p := by
  obtain ⟨pending, strike, displaced, held, due, waiting⟩ := stored
  cases p with
  | pending n v => exact pending n v rfl
  | strike n v l e t m =>
    cases m with
    | none => exact strike n v l e t rfl
    | some m => exact displaced n v l e t m rfl
  | hold n v l d start =>
    by_cases come : reached now release = true
    · exact (due n v l d start rfl come).trans (if_pos come).symm
    · exact (held n v l d start rfl come).trans (if_neg come).symm
  | waiting m g => exact waiting m g rfl
  | idle | damp g | retired r => cases owner

section
variable {s : State} {time : Time}

/-- The close of one key, or of every key of the owner, changes those keys and needs no examination of a head that
does not wait (R132). -/
theorem applyOff_eq (key : Option Key) (cueId : Byte) (quiet : s.queue.status ≠ .waiting) :
    ∃ keys : Vector KeyRecord 88, applyOff key cueId time s = { s with keys := keys } ∧
      ∀ k : Key, keys[k] =
        if ∀ key0, key = some key0 → k = transposedKey s.contexts.cue (keyNumber key0)
        then closedRecord (cueOwner cueId) time s k else s.key k := by
  cases key with
  | none =>
    obtain ⟨records, closed, each⟩ := closeAll_spec (cueOwner cueId) time s
    refine ⟨records, (settling_of_same_queue (by rw [closed]) quiet).trans closed, fun k => ?_⟩
    rw [each, if_pos nofun]
  | some key0 =>
    have closed := closeKey_eq (cueOwner cueId) time (transposedKey s.contexts.cue (keyNumber key0)) s
    refine ⟨_, (settling_of_same_queue (by rw [closed]; rfl) quiet).trans closed, fun k => ?_⟩
    refine (s.key_setKey _ k _).trans ?_
    by_cases own : transposedKey s.contexts.cue (keyNumber key0) = k
    · subst own
      rw [if_pos rfl, if_pos fun _ same => by cases same; rfl]
    · rw [if_neg own, if_neg fun named => own (named key0 rfl).symm]

end

/-! ### An entry applied (R185, R186) -/

section
variable {s b : State} {time : Time}

theorem applyPedal_of_applied {p : Pedal} {position : Nat} (applied : CueApplied (.pedal p position time) s b) :
    applyPedal p position s = b := by
  rcases applied with ⟨sound, entitled, rfl⟩ | ⟨refused, rfl⟩
  · have set := cuePedal_of_entitled (position := position) sound entitled
    rw [applyPedal, set]
    rfl
  · rcases refused with fault | ⟨owner, below⟩
    · rw [applyPedal, cuePedal_of_fault fault]
      rfl
    · by_cases fault : (s.pedal p).mode = .fault
      · rw [applyPedal, cuePedal_of_fault fault]
        rfl
      · rw [applyPedal, cuePedal_of_outranked fault owner below]
        rfl

theorem applyOn_of_applied {key : Key} {cueId : Byte} {level : CueLevel}
    (applied : CueApplied (.on key cueId level time) s b) : applyOn key cueId level time s = b := by
  obtain ⟨k, stored, folded, levelled, ⟨refused, rfl⟩ | ⟨enabled, low, high, n, noteLevel, note, taken⟩⟩ := applied
  · show applyOn key cueId level time s = countDropped (openPhrase s)
    by_cases admitted : s.contexts.cue.enabled = true ∧ inKeyRange s.contexts.cue k = true
    · obtain ⟨enabled, inside⟩ := admitted
      obtain ⟨low, high⟩ := of_decide_eq_true inside
      refine applyOn_of_refused enabled folded inside ?_
      rcases refused with disabled | below | above | refused
      · rw [enabled] at disabled
        cases disabled
      · exact absurd low (Nat.not_le.mpr below)
      · exact absurd high (Nat.not_le.mpr above)
      · exact refused
    · refine applyOn_of_barred folded ?_
      rwa [← Bool.not_eq_true, ← Bool.not_eq_true, ← not_and_or]
  · have inside : inKeyRange s.contexts.cue k = true := decide_eq_true ⟨low, high⟩
    rcases taken with ⟨v, scaled, idle, values, ahead, empty, -, rfl⟩ | ⟨gapEnd, plain, quiet, other, phase, rfl⟩
    · subst scaled note
      exact applyOn_of_idle enabled folded inside levelled idle rfl values empty ahead
    · subst plain
      rcases phase with damp | ⟨rfl, n0, v, l, d, start, hold, ranked⟩
      · have unowned : s.owner k = none := by rw [State.owner, damp]; rfl
        refine (applyOn_of_busy enabled folded inside levelled (by rw [damp]; simp [phaseNumber]) (by rw [damp]; rfl)
          (passesPriority_of_unowned unowned) note quiet other).trans ?_
        rw [damp]
        rfl
      · have owner : s.owner k = some n0.claimant := by rw [State.owner, hold]; rfl
        have passes : passesPriority (onClaim k cueId level time) s = true := by
          rw [passesPriority_of_owner (c := onClaim k cueId level time) owner]
          exact decide_eq_true ranked
        refine (applyOn_of_busy enabled folded inside levelled (by rw [hold]; simp [phaseNumber])
          (alive_of_owner owner) passes note quiet other).trans ?_
        rw [hold]
        rfl

theorem applyOff_of_applied {key : Option Key} {cueId : Byte} (applied : CueApplied (.off key cueId time) s b) :
    applyOff key cueId time s = b := by
  obtain ⟨quiet, same, closed⟩ := applied
  obtain ⟨keys, run, each⟩ := applyOff_eq (time := time) key cueId quiet
  have records : keys = b.keys := by
    refine Vector.ext fun i bound => ?_
    have record : keys[(⟨i, bound⟩ : Key)] = b.key ⟨i, bound⟩ := by
      obtain ⟨left, released⟩ := closed ⟨i, bound⟩
      rw [each]
      split
      · rename_i named
        unfold closedRecord
        split
        · rename_i owner
          obtain ⟨kept, stored⟩ := released owner named
          rw [kept, releasedPhase_of_stored owner stored]
          rfl
        · rename_i other
          exact (left (.inl other)).symm
      · rename_i other
        obtain ⟨key0, unnamed⟩ := not_forall.mp other
        exact (left (.inr ⟨key0, Classical.not_imp.mp unnamed⟩)).symm
    exact record
  rw [run, same, records]

/-- What the rules say of an entry's application is what the cue player does. -/
theorem applyEntry_of_applied {e : CueEntry} (applied : CueApplied e s b) : applyEntry e s = b := by
  cases e with
  | endPhrase time => exact applied.symm
  | pedal p position time => exact applyPedal_of_applied applied
  | on key cueId level time => exact applyOn_of_applied applied
  | off key cueId time => exact applyOff_of_applied applied

/-- No application touches the clock, the settings, the port or the entries that are left. -/
theorem cueApplied_frame {e : CueEntry} (applied : CueApplied e s b) : b.clock = s.clock ∧ b.settings = s.settings ∧
    b.port = s.port ∧ b.cue.entries = s.cue.entries ∧ b.cue.orderRef = s.cue.orderRef := by
  cases e with
  | endPhrase time =>
    obtain rfl := applied
    exact ⟨rfl, rfl, rfl, rfl, rfl⟩
  | pedal p position time =>
    rcases applied with ⟨-, -, rfl⟩ | ⟨-, rfl⟩
    · cases p <;> exact ⟨rfl, rfl, rfl, rfl, rfl⟩
    · exact ⟨rfl, rfl, rfl, rfl, rfl⟩
  | on key cueId level time =>
    obtain ⟨k, stored, -, -, ⟨-, rfl⟩ | ⟨-, -, -, n, noteLevel, -, taken⟩⟩ := applied
    · exact ⟨rfl, rfl, rfl, rfl, rfl⟩
    · rcases taken with ⟨v, -, -, -, -, -, -, rfl⟩ | ⟨gapEnd, -, -, -, -, rfl⟩ <;> exact ⟨rfl, rfl, rfl, rfl, rfl⟩
  | off key cueId time =>
    obtain ⟨-, same, -⟩ := applied
    rw [same]
    exact ⟨rfl, rfl, rfl, rfl, rfl⟩

end

/-! ### Low water and the underrun (R187, R188) -/

section
variable {s : State}

theorem withdrawSource_frame (source : Source) (s : State) :
    ∃ keys queue, withdrawSource source s = { s with keys := keys, queue := queue } := ⟨_, _, rfl⟩

/-- The low-water test is made of the number of entries left. -/
theorem lowWaterTest_eq {low : List Notice}
    (noticed : low = [] ∧ s.cue.entries.length ≠ s.setting .cueLow ∨
      low = [{ kind := .cueLow, lost := false, time := s.clock
               fields := byteOf s.cue.entries.length :: fieldOptional 4 (s.cue.orderRef.map fieldTime) }] ∧
        s.cue.entries.length = s.setting .cueLow ∧ s.port.notices.length < 32) :
    lowWaterTest s = { s with port := { s.port with notices := s.port.notices ++ low } } := by
  rcases noticed with ⟨rfl, other⟩ | ⟨rfl, reached, room⟩
  · rw [lowWaterTest, if_neg other, List.append_nil]
  · rw [lowWaterTest, if_pos reached, State.raise_of_room _ _ _ room]

theorem underrunTest_of_kept (kept : s.cue.entries ≠ [] ∨ s.cue.phraseOpen = false ∨
      ∀ k : Key, ownedBy .cue (s.key k).phase = false) : underrunTest s = s := by
  refine if_neg ?_
  rintro ⟨empty, phrase, owned⟩
  rcases kept with left | closed | unowned
  · exact left empty
  · rw [closed] at phrase
    cases phrase
  · have none : countOwned .cue s = 0 := by
      rw [countOwned, List.filter_eq_nil_iff.mpr fun k _ => Bool.eq_false_iff.mp (unowned k)]
      rfl
    omega

/-- An underrun withdraws the keys of CUE, and closes the phrase with PHRASE_ABORT. -/
theorem underrunTest_of_empty (empty : s.cue.entries = []) (phrase : s.cue.phraseOpen = true)
    (owned : 0 < countOwned .cue s) (room : s.port.notices.length < 32) : ∃ keys queue,
    underrunTest s = { s with
      keys := keys
      queue := queue
      cue := { s.cue with phraseOpen := false }
      port := { s.port with notices := s.port.notices ++
        [{ kind := .phraseAbort, lost := false, time := s.clock, fields := [byteOf (countOwned .cue s)] }] } } ∧
    ∀ k : Key, WithdrawnKey .cue s { s with keys := keys } k := by
  obtain ⟨keys, queue, settled, -, -⟩ := settling_frame none (withdrawSource .cue) s
  obtain ⟨keys', queue', withdrawn⟩ := withdrawSource_frame .cue s
  have settled : settling none (withdrawSource .cue) s = { s with keys := keys, queue := queue } := by
    rw [settled, withdrawn]
  refine ⟨keys, queue, ?_, fun k => ?_⟩
  · rw [underrunTest, if_pos ⟨empty, phrase, owned⟩, settled]
    exact State.raise_of_room
      { s with keys := keys, queue := queue, cue := { s.cue with phraseOpen := false } } .phraseAbort _ room
  · have key := withdrawnKey_of_withdrawSource .cue s k
    rw [settled] at key
    exact key

end

/-! ### CUE_ENTRY_DUE (R182, R184) -/

section
variable {s s' : State} {e : CueEntry}

theorem cueReached_iff : cueReached s e = true ↔ reached s.clock e.time = true ∨ reached s.clock (cueDue s e) = true :=
  Bool.or_eq_true_iff

/-- What is due depends on the clock and the settings alone. -/
theorem cueReached_congr (clock : s'.clock = s.clock) (settings : s'.settings = s.settings) :
    cueReached s' e = cueReached s e := by
  cases e <;> simp only [cueReached, cueDue, State.setting, clock, settings]

theorem serviceLoop_of_waiting (waits : ∀ x, s.cue.entries.head? = some x → cueReached s x = false) (n : Nat) :
    serviceLoop n s = s := by
  cases n with
  | zero => rfl
  | succ n =>
    unfold serviceLoop
    split
    · rfl
    · rename_i x rest entries
      rw [waits x (by rw [entries]; rfl)]
      rfl

theorem serviceCue_of_due {rest : List CueEntry} (entries : s.cue.entries = e :: rest) (due : cueReached s e = true)
    (next : ∀ x, (applyHead e rest s).cue.entries.head? = some x → cueReached (applyHead e rest s) x = false) :
    serviceCue s = applyHead e rest s := by
  rw [serviceCue, entries, List.length_cons, serviceLoop, entries]
  dsimp only
  rw [if_pos due, serviceLoop_of_waiting next]

end

/-- Settles O52: the head applied as `CueApplied` says, then low water and the underrun, and the next head not due. -/
theorem cueEntriesApplied : Obligations.CueEntriesApplied := by
  intro s a b t due e rest low came entries dueTime
  have timed : due = cueDue a e := dueTime.trans (by cases e <;> rfl)
  subst timed
  have executed : exec (.cueEntryDue t) s = .next (serviceCue a) := came ▸ rfl
  refine ⟨fun ahead notDue => ?waits, fun come next noticed applied => ?applied⟩
  case waits =>
    have waits : ∀ x, a.cue.entries.head? = some x → cueReached a x = false := fun x head => by
      rw [entries] at head
      cases head
      exact Bool.eq_false_iff.mpr fun reached => (cueReached_iff.mp reached).elim ahead notDue
    rw [executed, serviceCue, serviceLoop_of_waiting waits]
  case applied =>
    obtain ⟨clock, settings, port, left, orderRef⟩ := cueApplied_frame applied
    have tested : lowWaterTest b = { b with port := { b.port with notices := b.port.notices ++ low } } :=
      lowWaterTest_eq (by rw [State.setting, clock, settings, port, left, orderRef]; exact noticed)
    have head : applyHead e rest a =
        underrunTest { b with port := { b.port with notices := a.port.notices ++ low } } := by
      rw [applyHead]
      refine congrArg underrunTest ((congrArg lowWaterTest (applyEntry_of_applied applied)).trans ?_)
      rw [tested, port]
    have waits {u : State} (own : u.cue.entries = rest) (clocked : u.clock = a.clock) (set : u.settings = a.settings) :
        ∀ x, u.cue.entries.head? = some x → cueReached u x = false := fun x follows => by
      rw [own] at follows
      rw [cueReached_congr clocked set]
      exact Bool.eq_false_iff.mpr fun reached => (cueReached_iff.mp reached).elim (next x follows).1 (next x follows).2
    have served {u : State} (result : applyHead e rest a = u) (own : u.cue.entries = rest) (clocked : u.clock = a.clock)
        (set : u.settings = a.settings) : exec (.cueEntryDue t) s = .next u := by
      subst result
      rw [executed, serviceCue_of_due entries (cueReached_iff.mpr come) (waits own clocked set)]
    refine ⟨fun kept => ?kept, fun count empty phrase counted owned room => ?underrun⟩
    case kept =>
      refine served (head.trans (underrunTest_of_kept ?_)) left clock settings
      exact kept.imp_left fun some => left ▸ some
    case underrun =>
      subst counted
      obtain ⟨keys, queue, ended, withdrawn⟩ := underrunTest_of_empty
        (s := { b with port := { b.port with notices := a.port.notices ++ low } }) (left.trans empty) phrase
        owned (by rw [List.length_append]; exact room)
      refine ⟨_, served (head.trans ended) left clock settings, withdrawn, ?_⟩
      rw [← clock]
      rfl

end Sys2Proof.Machine
end

section
/-! Which tables an event writes, and the bounds of the cue queue and of the three port queues: what the shared
operations keep (10_source_contexts R182, R183; 11_host_port R194 to R196). -/

set_option Elab.async false

namespace Sys2Proof.Machine

/-! ### The order of the cue queue (R182, R183) -/

theorem timesOrdered_iff (q : List CueEntry) :
    timesOrdered q ↔ q.IsChain fun a b => 0 ≤ clockDiff b.time a.time := by
  induction q with
  | nil => exact iff_of_true trivial .nil
  | cons a q ih =>
    cases q with
    | nil => exact iff_of_true trivial (.singleton a)
    | cons b q => rw [List.isChain_cons_cons, ← ih]; rfl

theorem timesOrdered_tail {e : CueEntry} {q : List CueEntry} (ordered : timesOrdered (e :: q)) : timesOrdered q :=
  (timesOrdered_iff q).mpr ((timesOrdered_iff _).mp ordered).tail

/-- An entry not earlier than the tail joins it. -/
theorem timesOrdered_concat {q : List CueEntry} {e : CueEntry} (ordered : timesOrdered q)
    (follows : ∀ x, q.getLast? = some x → 0 ≤ clockDiff e.time x.time) : timesOrdered (q ++ [e]) := by
  rw [timesOrdered_iff] at ordered ⊢
  refine List.isChain_append.mpr ⟨ordered, .singleton e, fun x last y head => ?_⟩
  cases head
  exact follows x last

theorem not_earlierThan_iff {t : Time} {reference : Option Time} :
    earlierThan t reference = false ↔ ∀ r, reference = some r → 0 ≤ clockDiff t r := by
  cases reference with
  | none => exact iff_of_true rfl nofun
  | some r => simp [earlierThan]

/-- What `CueSafe` says of the cue player. -/
def CueFits (c : CuePlayer) : Prop :=
  c.entries.length ≤ 256 ∧ timesOrdered c.entries ∧ ∀ e, c.entries.getLast? = some e → c.orderRef = some e.time

theorem CueFits.of_empty {c : CuePlayer} (empty : c.entries = []) : CueFits c := by
  refine ⟨?_, ?_, ?_⟩ <;> rw [empty]
  · exact Nat.zero_le _
  · exact trivial
  · exact nofun

/-- The head leaves the queue: the tail, if there is one, is the tail it was. -/
theorem CueFits.tail {c : CuePlayer} {e : CueEntry} {rest : List CueEntry} (h : CueFits c) (queued : c.entries = e :: rest) :
    CueFits { c with entries := rest } := by
  obtain ⟨bound, ordered, reference⟩ := h
  rw [queued] at bound ordered reference
  refine ⟨Nat.le_of_succ_le bound, timesOrdered_tail ordered, fun x last => reference x ?_⟩
  rw [List.getLast?_cons, last]
  rfl

/-- A push tests each entry against the order reference, which is the time of the tail (R183). -/
theorem CueFits.push {c : CuePlayer} (h : CueFits c) (cueId : Byte) (frames : List (List Byte)) (n : Nat) :
    CueFits (pushEntries cueId frames n c).cue := by
  induction frames generalizing n c with
  | nil => exact h
  | cons f frames ih =>
    unfold pushEntries
    split
    · exact h
    · rename_i entry _
      split
      · exact h
      · rename_i inOrder
        split
        · exact h
        · rename_i room
          obtain ⟨-, ordered, reference⟩ := h
          have follows := not_earlierThan_iff.mp (Bool.eq_false_iff.mpr inOrder)
          refine ih ⟨?_, timesOrdered_concat ordered fun x last => follows _ (reference x last), fun x last => ?_⟩ _
          · rw [List.length_append]
            exact Nat.not_le.mp room
          · rw [List.getLast?_concat] at last
            cases last
            rfl

/-! ### What an event writes -/

/-- The tables that few commands write, and the EEPROM within the image loader. -/
inductive Table where
  | settings
  | contexts
  | heat
  | loader
  | eeprom

/-- The queues of the port within their bounds, with so many responses at most. -/
def PortFits (room : Nat) (p : HostPort) : Prop :=
  p.intake.length ≤ 8 ∧ p.responses.length ≤ room ∧ p.notices.length ≤ 32

/-- A request's frame leaves the intake, and leaves room for an answer. -/
theorem PortFits.dropHead {p : HostPort} (h : PortFits 16 p) (free : p.responses.length < 16) :
    PortFits 15 { p with intake := p.intake.tail } := by
  obtain ⟨intake, -, notices⟩ := h
  refine ⟨?_, Nat.le_of_lt_succ free, notices⟩
  rw [List.length_tail]
  exact (Nat.sub_le _ 1).trans intake

theorem PortFits.respond {room : Nat} {p : HostPort} (h : PortFits room p) (r : Response) (overflow : Bool) :
    PortFits (room + 1) { p with responses := p.responses ++ [r], overflowPending := overflow } := by
  obtain ⟨intake, responses, notices⟩ := h
  refine ⟨intake, ?_, notices⟩
  rw [List.length_append]
  exact Nat.succ_le_succ responses

/-- What leads from `s` to `s'` writes no table but those of `w`, and keeps the cue queue and the port's queues in
their bounds, for any bound on the responses up to the queue's own. -/
structure WritesOnly (w : Table → Bool) (room : Nat) (s s' : State) : Prop where
  settings : w .settings = false → s'.settings = s.settings
  contexts : w .contexts = false → s'.contexts = s.contexts
  heat : w .heat = false → s'.heat = s.heat
  loader : w .loader = false → s'.loader = s.loader
  eeprom : w .eeprom = false → s'.loader.eeprom = s.loader.eeprom
  cue : CueFits s.cue → CueFits s'.cue
  port : PortFits room s.port → PortFits room s'.port

namespace WritesOnly

variable {w : Table → Bool} {room : Nat} {s₀ s s' : State}

/-! ### Single updates -/

theorem refl (s : State) : WritesOnly w room s s :=
  ⟨fun _ => rfl, fun _ => rfl, fun _ => rfl, fun _ => rfl, fun _ => rfl, id, id⟩

/-- An event on other blocks. -/
theorem same (h : WritesOnly w room s₀ s) (settings : s'.settings = s.settings := by rfl)
    (contexts : s'.contexts = s.contexts := by rfl) (heat : s'.heat = s.heat := by rfl)
    (loader : s'.loader = s.loader := by rfl) (cue : s'.cue = s.cue := by rfl) (port : s'.port = s.port := by rfl) :
    WritesOnly w room s₀ s' where
  settings free := settings.trans (h.settings free)
  contexts free := contexts.trans (h.contexts free)
  heat free := heat.trans (h.heat free)
  loader free := loader.trans (h.loader free)
  eeprom free := (congrArg ImageLoader.eeprom loader).trans (h.eeprom free)
  cue fits := cue ▸ h.cue fits
  port fits := port ▸ h.port fits

theorem setPort (h : WritesOnly w room s₀ s) {p : HostPort} (fits : PortFits room s.port → PortFits room p) :
    WritesOnly w room s₀ (s.setPort p) :=
  { h with port := fun before => fits (h.port before) }

theorem setCue (h : WritesOnly w room s₀ s) {c : CuePlayer} (fits : CueFits s.cue → CueFits c) :
    WritesOnly w room s₀ (s.setCue c) :=
  { h with cue := fun before => fits (h.cue before) }

theorem setSettings (h : WritesOnly w room s₀ s) (named : w .settings = true) (t : Settings) :
    WritesOnly w room s₀ { s with settings := t } :=
  { h with settings := fun free => Bool.noConfusion (named.symm.trans free) }

theorem setContext (h : WritesOnly w room s₀ s) (named : w .contexts = true) (source : Source) (c : ContextBlock) :
    WritesOnly w room s₀ (s.setContext source c) := by
  cases source <;> exact { h with contexts := fun free => Bool.noConfusion (named.symm.trans free) }

theorem setHeatMonitor (h : WritesOnly w room s₀ s) (named : w .heat = true) (m : HeatMonitor) :
    WritesOnly w room s₀ { s with heat := m } :=
  { h with heat := fun free => Bool.noConfusion (named.symm.trans free) }

theorem setLoader (h : WritesOnly w room s₀ s) (named : w .loader = true) {l : ImageLoader}
    (eeprom : w .eeprom = false → l.eeprom = s.loader.eeprom) : WritesOnly w room s₀ (s.setLoader l) :=
  { h with
    loader := fun free => Bool.noConfusion (named.symm.trans free)
    eeprom := fun free => (eeprom free).trans (h.eeprom free) }

/-- A notice raised at a full queue of notices is discarded (R196). -/
theorem raise (h : WritesOnly w room s₀ s) (kind : NoticeKind) (fields : List Byte) :
    WritesOnly w room s₀ (s.raise kind fields) := by
  have noticed := h.setPort (p := (s.raise kind fields).port) fun ⟨intake, responses, notices⟩ => by
    have bound := s.raise_notices_length kind fields notices
    rw [State.raise_port]
    exact ⟨intake, responses, bound⟩
  obtain ⟨port, e⟩ := s.raise_frame kind fields
  rw [e] at noticed ⊢
  exact noticed

theorem setHalf (h : WritesOnly w room s₀ s) (half : Half) (c : HalfContext) : WritesOnly w room s₀ (s.setHalf half c) := by
  cases half <;> exact h.same

theorem setPedal (h : WritesOnly w room s₀ s) (p : Pedal) (r : PedalRecord) : WritesOnly w room s₀ (s.setPedal p r) := by
  cases p <;> exact h.same

/-- An event of the roll or a claim at its receiver. -/
theorem event (h : WritesOnly w room s₀ s) (event : EventUpdate s s') : WritesOnly w room s₀ s' := by
  obtain ⟨_, _, _, _, _, rfl⟩ := event
  exact h.same

/-- An event on one key after another. -/
theorem foldl_keys (h : WritesOnly w room s₀ s) {f : Key → State → State}
    (each : ∀ k {u}, WritesOnly w room s₀ u → WritesOnly w room s₀ (f k u)) (keys : List Key) :
    WritesOnly w room s₀ (keys.foldl (fun t k => f k t) s) :=
  List.foldlRecOn keys _ h fun _ kept k _ => each k kept

/-! ### Keys and the strike queue -/

theorem examineHead (h : WritesOnly w room s₀ s) : WritesOnly w room s₀ (examineHead s) := by
  obtain ⟨keys, queue, e, -⟩ := examineHead_spec s
  rw [e]
  exact h.same

theorem reexamineHead (h : WritesOnly w room s₀ s) : WritesOnly w room s₀ (reexamineHead s) := by
  obtain ⟨keys, queue, e, -⟩ := reexamineHead_frame s
  rw [e]
  exact h.same

theorem settling {f : State → State} (h : WritesOnly w room s₀ (f s)) (placed : Option Key) :
    WritesOnly w room s₀ (settling placed f s) := by
  obtain ⟨keys, queue, e, -⟩ := settling_frame placed f s
  rw [e]
  exact h.same

theorem claim (h : WritesOnly w room s₀ s) (c : Claim) : WritesOnly w room s₀ (claim c s).1 := h.event (.claim c s)

theorem closeKey (h : WritesOnly w room s₀ s) (o : Owner) (release : Time) (k : Key) :
    WritesOnly w room s₀ (closeKey o release k s) := h.event (.closeKey o release k s)

theorem closeAll (h : WritesOnly w room s₀ s) (o : Owner) (release : Time) :
    WritesOnly w room s₀ (closeAll o release s) := h.foldl_keys (fun k _ kept => kept.closeKey o release k) allKeys

theorem updatePhases (h : WritesOnly w room s₀ s) (f : Key → KeyRecord → KeyPhase) :
    WritesOnly w room s₀ (updatePhases f s) := by
  rw [updatePhases_frame]
  exact h.same

theorem withdrawSource (h : WritesOnly w room s₀ s) (source : Source) : WritesOnly w room s₀ (withdrawSource source s) :=
  h.updatePhases _

theorem silenceKeys (h : WritesOnly w room s₀ s) : WritesOnly w room s₀ (silenceKeys s) := h.updatePhases _

theorem silenceOutside (h : WritesOnly w room s₀ s) (source : Source) (low high : Nat) :
    WritesOnly w room s₀ (silenceOutside source low high s) := h.updatePhases _

theorem retireKey (h : WritesOnly w room s₀ s) (k : Key) (reason : RetireReason) :
    WritesOnly w room s₀ (retireKey k reason s) := raise h.same _ _

theorem endStrike (h : WritesOnly w room s₀ s) (k : Key) : WritesOnly w room s₀ (endStrike k s) := by
  rcases endStrike_spec k s with e | ⟨p, e⟩ | ⟨-, p, o, e⟩ <;> rw [e]
  · exact h
  · exact h.same
  · exact raise h.same _ _

theorem missStrike (h : WritesOnly w room s₀ s) (k : Key) : WritesOnly w room s₀ (missStrike k s) := by
  unfold Machine.missStrike
  dsimp only
  split
  · exact retireKey h.same k _
  · exact endStrike h.same k

theorem unsenseStrike (h : WritesOnly w room s₀ s) (k : Key) : WritesOnly w room s₀ (unsenseStrike k s) := by
  unfold Machine.unsenseStrike
  split
  · dsimp only
    split
    · exact endStrike h.same k
    · exact h.same
  · exact h

theorem timeOutKey (h : WritesOnly w room s₀ s) (k : Key) : WritesOnly w room s₀ (timeOutKey k s) := by
  unfold Machine.timeOutKey
  split
  · exact raise h.same _ _
  · exact h

theorem timeOutIfDue (h : WritesOnly w room s₀ s) (k : Key) : WritesOnly w room s₀ (timeOutIfDue k s) := by
  unfold Machine.timeOutIfDue
  split
  · split
    · exact h.timeOutKey k
    · exact h
  · exact h

/-! ### Requests and the clock (R195; log 3, 4) -/

/-- A request answered from the state its effect leaves: with room for the answer, the effect begins with one response
fewer than the queue holds. -/
theorem answered (h : WritesOnly w 16 s₀ s) {u : State} (free : s.port.responses.length < 16)
    (served : WritesOnly w 15 s.dropHead u) (code tag : Byte) (result : Result) (data : List Byte) :
    WritesOnly w 16 s₀ (u.respond code tag result data) where
  settings free := (served.settings free).trans (h.settings free)
  contexts free := (served.contexts free).trans (h.contexts free)
  heat free := (served.heat free).trans (h.heat free)
  loader free := (served.loader free).trans (h.loader free)
  eeprom free := (served.eeprom free).trans (h.eeprom free)
  cue fits := served.cue (h.cue fits)
  port fits := (served.port ((h.port fits).dropHead free)).respond _ _

/-- A request executed writes what its effect writes. -/
theorem serveRequest (h : WritesOnly w 16 s₀ s) {act : List Byte → State → Answer}
    (effect : ∀ arguments u, WritesOnly w 15 u (act arguments u).state) (code : Nat) (whileLoading : Bool) :
    WritesOnly w 16 s₀ (serveRequest code whileLoading act s) := by
  rcases serveRequest_cases s code whileLoading act with e | ⟨f, free, -, -, -, ⟨-, -, e⟩ | ⟨-, e⟩⟩ <;> rw [e]
  · exact h
  · exact h.answered free (.refl _) _ _ _ _
  · exact h.answered free (effect _ _) _ _ _ _

theorem serveBadRequest (h : WritesOnly w 16 s₀ s) : WritesOnly w 16 s₀ (serveBadRequest s) := by
  unfold Machine.serveBadRequest headFrame
  split
  · exact h
  · rename_i f head
    split at head
    · rename_i free
      split
      · exact h
      · exact h.answered free (.refl _) _ _ _ _
    · cases head

theorem idle (h : WritesOnly w 16 s₀ s) : WritesOnly w 16 s₀ (idle s) :=
  h.serveRequest (fun _ u => .refl u) _ _

theorem arrive (h : WritesOnly w 16 s₀ s) (t : Time) : WritesOnly w 16 s₀ (s.arrive t) := by
  have found (n : Nat) : WritesOnly w 16 s₀ (serveKeyFinds n s) := by
    induction n generalizing s with
    | zero => exact h
    | succ n ih => exact ih h.idle
  have came (n : Nat) {u : State} (kept : WritesOnly w 16 s₀ u) : WritesOnly w 16 s₀ (arriveLoop n t u) := by
    induction n generalizing u with
    | zero => exact kept.same
    | succ n ih =>
      unfold arriveLoop
      split
      · exact kept.same
      · rename_i o k _
        have moved : WritesOnly w 16 s₀ (u.atTime (timePlus u.clock o)) := kept.same
        exact ih ((moved.timeOutKey k).settling none)
  exact came 88 (found _)

end WritesOnly

end Sys2Proof.Machine
end

section
/-! What the commands write, block by block (10_source_contexts R181 to R189; 11_host_port R193 to R206). -/

set_option Elab.async false

namespace Sys2Proof.Machine

namespace WritesOnly

variable {w : Table → Bool} {room : Nat} {s₀ s : State}

/-! ### The scan receiver and the tracker -/

theorem takeSampledLine (h : WritesOnly w room s₀ s) (line : LineNo) (time : Time) (states : Vector Bool 102) :
    WritesOnly w room s₀ (takeSampledLine line time states s) := event h.same (.sendEvents _ _)

/-- A departure from LOCKED withdraws the roll (R29, R31). -/
theorem departure (h : WritesOnly w room s₀ s) (t : Tracker) :
    WritesOnly w room s₀ (stopLineTimer (rollWithdrawal (emptyApertures (s.setTracker t)))) := by
  obtain ⟨keys, queue, e⟩ := rollWithdrawal_eq (emptyApertures (s.setTracker t))
  rw [e]
  exact h.same

theorem enterLost (h : WritesOnly w room s₀ s) (reason : LossReason) (line : LineNo) :
    WritesOnly w room s₀ (enterLost reason line s) := (h.departure _).raise _ _

theorem rollEnd (h : WritesOnly w room s₀ s) (line : LineNo) : WritesOnly w room s₀ (rollEnd line s) :=
  raise (h.departure _).same _ _

theorem seekLine (h : WritesOnly w room s₀ s) (ln : CompletedLine) : WritesOnly w room s₀ (seekLine ln s) := by
  unfold Machine.seekLine
  dsimp only
  split
  · exact raise h.same _ _
  · exact h.same

theorem sendHeldLines (h : WritesOnly w room s₀ s) (ln : CompletedLine) (left : Nat) :
    WritesOnly w room s₀ (sendHeldLines ln left s) := by
  induction left generalizing s with
  | zero => exact h
  | succ left ih => exact ih (h.takeSampledLine _ _ _)

theorem sampleLine (h : WritesOnly w room s₀ s) (ln : CompletedLine) : WritesOnly w room s₀ (sampleLine ln s) := by
  unfold Machine.sampleLine
  extract_lets states marks
  split
  · exact h.rollEnd _
  · exact takeSampledLine h.same _ _ _

theorem followLine (h : WritesOnly w room s₀ s) (ln : CompletedLine) : WritesOnly w room s₀ (followLine ln s) := by
  unfold Machine.followLine
  dsimp only
  split
  · exact (enterLost h.same _ _).seekLine ln
  · exact sampleLine h.same ln

theorem lockedLine (h : WritesOnly w room s₀ s) (ln : CompletedLine) : WritesOnly w room s₀ (lockedLine ln s) := by
  unfold Machine.lockedLine
  split
  · exact (h.enterLost _ _).seekLine ln
  · exact (h.sendHeldLines ln _).followLine ln

theorem takeLine (h : WritesOnly w room s₀ s) (ln : CompletedLine) : WritesOnly w room s₀ (takeLine ln s) := by
  have marked : WritesOnly w room s₀ (if ln.mark then applyRestartMark s else s) := by
    rw [applyRestartMark_eq]
    split
    · exact h.same
    · exact h
  unfold Machine.takeLine
  dsimp only
  split
  · exact marked
  · exact seekLine marked.same ln
  · exact seekLine marked.same ln
  · exact lockedLine marked.same ln

theorem storeLine (h : WritesOnly w room s₀ s) (c : CurrentLine) : WritesOnly w room s₀ (storeLine c s) := by
  have stored : WritesOnly w room s₀ (s.setScan { s.scan with current := some c }) := h.same
  unfold Machine.storeLine
  dsimp only
  split
  · exact (stored.takeLine _).same
  · exact stored

theorem takeSegment (h : WritesOnly w room s₀ s) (lane : Fin 4) (line : LineNo) (payload : LanePixels) :
    WritesOnly w room s₀ (takeSegment lane line payload s) := by
  unfold Machine.takeSegment
  split
  · exact h.same
  · split
    · split
      · exact h.same
      · exact storeLine h.same _
    · split
      · exact h.storeLine _
      · exact storeLine h.same _
      · exact h.same

theorem takeHeader (h : WritesOnly w room s₀ s) (lane : Fin 4) (header : BitVec 24) (bytes : List Byte) :
    WritesOnly w room s₀ (takeHeader lane header bytes s) := by
  unfold Machine.takeHeader
  split
  · exact h.same
  · split
    · exact h.same
    · exact h.takeSegment _ _ _

theorem checkSegment (h : WritesOnly w room s₀ s) (lane : Fin 4) (bytes : List Byte) :
    WritesOnly w room s₀ (checkSegment lane bytes s) := by
  unfold Machine.checkSegment
  split
  · exact h.takeHeader _ _ _
  · exact takeHeader h.same _ _ _
  · exact h.same

theorem takeBurstOn (h : WritesOnly w room s₀ s) (lane : Nat) (bytes : List Byte) :
    WritesOnly w room s₀ (takeBurstOn lane bytes s) := by
  unfold Machine.takeBurstOn
  split
  · unfold takeBurst
    dsimp only
    split
    · exact h.same
    · split
      · exact h.same
      · split
        · exact checkSegment h.same _ _
        · exact h.same
  · exact h

theorem expireLineTimer (h : WritesOnly w room s₀ s) : WritesOnly w room s₀ (expireLineTimer s) := by
  unfold Machine.expireLineTimer
  split
  · split
    · unfold reportSilent
      split
      · exact enterLost h.same _ _
      · exact h.same
    · exact h
  · exact h

/-! ### The timers of the keys -/

theorem onKey (h : WritesOnly w room s₀ s) {f : Key → State → State} (each : ∀ k, WritesOnly w room s₀ (f k s))
    (number : Nat) : WritesOnly w room s₀ (onKey number f s) := by
  unfold Machine.onKey
  split
  · exact each _
  · exact h

theorem expireHeadTimer (h : WritesOnly w room s₀ s) : WritesOnly w room s₀ (expireHeadTimer s) := by
  unfold Machine.expireHeadTimer
  split
  · split
    · exact h.examineHead
    · exact h
  · exact h

theorem expireStrike (h : WritesOnly w room s₀ s) (k : Key) : WritesOnly w room s₀ (expireStrike k s) := by
  unfold Machine.expireStrike
  split
  · split
    · refine settling ?_ none
      split
      · exact h.missStrike k
      · exact h.endStrike k
    · exact h
  · exact h

theorem endGap (h : WritesOnly w room s₀ s) (k : Key) : WritesOnly w room s₀ (endGap k s) := by
  unfold Machine.endGap
  split
  · split
    · exact h.same
    · exact h
  · split
    · exact settling h.same _
    · exact h
  · exact h

theorem reachRelease (h : WritesOnly w room s₀ s) (k : Key) : WritesOnly w room s₀ (reachRelease k s) := by
  unfold Machine.reachRelease
  split
  · split
    · exact settling h.same none
    · exact h
  · exact h

/-! ### The steps of expression, heat and pedals -/

theorem stepExpression (h : WritesOnly w room s₀ s) : WritesOnly w room s₀ (stepExpression s) := by
  unfold Machine.stepExpression
  split
  · split
    · exact h.same
    · exact h
  · exact h

theorem heatKey (h : WritesOnly w room s₀ s) (named : w .heat = true) (k : Key) : WritesOnly w room s₀ (heatKey k s) := by
  have heated := h.setHeatMonitor named { s.heat with figures := s.heat.figures.set k (heatedFigure (s.heatOf k) (driveLevel s k)) }
  unfold Machine.heatKey guardHold
  split
  · split
    · exact raise heated.same _ _
    · exact heated.same
  · exact heated

theorem stepHeat (h : WritesOnly w room s₀ s) (named : w .heat = true) : WritesOnly w room s₀ (stepHeat s) := by
  have stepped (m : HeatMonitor) : WritesOnly w room s₀ (heatKeys { s with heat := m }) :=
    (h.setHeatMonitor named m).foldl_keys (fun k _ kept => kept.heatKey named k) allKeys
  unfold Machine.stepHeat heatWork
  dsimp only
  split
  · split
    · split
      · exact (stepped _).reexamineHead
      · exact stepped _
    · exact h
  · exact h

theorem stepPedal (h : WritesOnly w room s₀ s) (p : Pedal) : WritesOnly w room s₀ (stepPedal p s) := by
  rw [stepPedal_eq]
  split
  · exact (h.setPedal p _).raise _ _
  · exact h.setPedal p _

theorem stepServo (h : WritesOnly w room s₀ s) : WritesOnly w room s₀ (stepServo s) := by
  have stepped (t : PedalServo) :
      WritesOnly w room s₀ (Machine.stepPedal .shift (Machine.stepPedal .sustain { s with pedals := t })) :=
    (stepPedal h.same .sustain).stepPedal .shift
  unfold Machine.stepServo servoWork
  dsimp only
  split
  · split
    · split
      · exact (stepped _).reexamineHead
      · exact stepped _
    · exact h
  · exact h

theorem settleTimeout (h : WritesOnly w room s₀ s) (p : Pedal) : WritesOnly w room s₀ (settleTimeout p s) := by
  unfold Machine.settleTimeout
  split
  · split
    · exact ((h.setPedal p _).raise _ _).reexamineHead
    · exact h
  · exact h

/-! ### The hammer line -/

theorem takeHammer (h : WritesOnly w room s₀ s) (k : Key) (dt : Nat) (reportTime : Time) :
    WritesOnly w room s₀ (takeHammer k dt reportTime s) := by
  unfold Machine.takeHammer
  split
  · rename_i v l _ _ _
    split
    · exact h.retireKey k _
    · have learned : WritesOnly w room s₀ (applyLearning k v l (measuredVelocity (s.setting .gateDist) dt)
          (measuredFlight reportTime l) s) := by
        rcases applyLearning_spec k v l (measuredVelocity (s.setting .gateDist) dt) (measuredFlight reportTime l) s with
          e | ⟨-, e⟩ <;> rw [e]
        · exact h
        · exact h.same
      exact endStrike learned.same k
  · exact h.same

theorem takeReport (h : WritesOnly w room s₀ s) (b0 b1 b2 b3 : Byte) : WritesOnly w room s₀ (takeReport b0 b1 b2 b3 s) := by
  have pedal (p : Pedal) (position : Nat) : WritesOnly w room s₀ (checkedPedalReport p position s) := by
    unfold checkedPedalReport
    split
    · exact h.same
    · exact h.setPedal p _
  unfold Machine.takeReport
  split
  · exact h.same
  · split
    · unfold hammerReport
      split
      · exact (h.takeHammer _ _ _).settling none
      · exact h.same
    · split
      · exact pedal _ _
      · split
        · exact pedal _ _
        · exact h.same

theorem receiveByte (h : WritesOnly w room s₀ s) (b : Byte) : WritesOnly w room s₀ (receiveByte b s) := by
  unfold Machine.receiveByte
  split
  · exact h.same
  · split
    · exact h
    · split
      case h_4 => exact takeReport h.same _ _ _ _
      all_goals exact h.same

theorem completeReport (h : WritesOnly w room s₀ s) (b : Byte) : WritesOnly w room s₀ (completeReport b s) := by
  unfold Machine.completeReport
  split
  · exact h.receiveByte b
  · exact h

theorem endBurst (h : WritesOnly w room s₀ s) : WritesOnly w room s₀ (endBurst s) := by
  unfold Machine.endBurst
  dsimp only
  split
  · exact h.same
  · split <;> exact h.same

/-! ### The cue player -/

theorem cuePedal (h : WritesOnly w room s₀ s) (p : Pedal) (position : Nat) :
    WritesOnly w room s₀ (cuePedal p position s).1 := by
  rcases cuePedal_spec p position s with ⟨-, e⟩ | ⟨-, -, -, e⟩ | ⟨-, e⟩ <;> rw [e]
  · exact h
  · exact h
  · exact h.setPedal p _

theorem applyEntry (h : WritesOnly w room s₀ s) (e : CueEntry) : WritesOnly w room s₀ (applyEntry e s) := by
  have dropped {u : State} (kept : WritesOnly w room s₀ u) : WritesOnly w room s₀ (countDropped u) := kept.setCue id
  have opened : WritesOnly w room s₀ (s.setCue { s.cue with phraseOpen := true }) := h.setCue id
  cases e with
  | on key cueId level time =>
    unfold Machine.applyEntry applyOn
    dsimp only
    split
    · exact dropped opened
    · split
      · exact opened.claim _
      · exact dropped (opened.claim _)
  | off key cueId time =>
    cases key with
    | none => exact settling (f := Machine.closeAll (cueOwner cueId) time) (h.closeAll _ _) none
    | some k => exact settling (f := Machine.closeKey (cueOwner cueId) time _) (h.closeKey _ _ _) none
  | pedal p position time =>
    unfold Machine.applyEntry applyPedal
    dsimp only
    split
    · exact h.cuePedal p position
    · exact dropped (h.cuePedal p position)
  | endPhrase time => exact h.setCue id

/-- The head of the queue leaves it and is applied; the entries behind it stay in order (R182, R184). -/
theorem applyHead (h : WritesOnly w room s₀ s) {e : CueEntry} {rest : List CueEntry} (queued : s.cue.entries = e :: rest) :
    WritesOnly w room s₀ (applyHead e rest s) := by
  have tested {u : State} (kept : WritesOnly w room s₀ u) : WritesOnly w room s₀ (lowWaterTest u) := by
    unfold lowWaterTest
    split
    · exact kept.raise _ _
    · exact kept
  have ended {u : State} (kept : WritesOnly w room s₀ u) : WritesOnly w room s₀ (underrunTest u) := by
    have withdrawn : WritesOnly w room s₀ (Machine.settling none (Machine.withdrawSource .cue) u) :=
      (kept.withdrawSource .cue).settling none
    have closed {v : State} (kept : WritesOnly w room s₀ v) :
        WritesOnly w room s₀ (v.setCue { v.cue with phraseOpen := false }) := kept.setCue id
    unfold underrunTest
    split
    · exact (closed withdrawn).raise _ _
    · exact kept
  have left : WritesOnly w room s₀ (s.setCue { s.cue with entries := rest }) := h.setCue fun fits => fits.tail queued
  exact ended (tested (left.applyEntry e))

theorem serviceCue (h : WritesOnly w room s₀ s) : WritesOnly w room s₀ (serviceCue s) := by
  have served (n : Nat) {u : State} (kept : WritesOnly w room s₀ u) : WritesOnly w room s₀ (serviceLoop n u) := by
    induction n generalizing u with
    | zero => exact kept
    | succ n ih =>
      unfold serviceLoop
      split
      · exact kept
      · rename_i queued
        split
        · exact ih (kept.applyHead queued)
        · exact kept
  exact served _ h

/-! ### Resets and the image load -/

theorem performanceResetState (h : WritesOnly w room s₀ s) : WritesOnly w room s₀ (performanceResetState s) :=
  have silent := h.setCue (c := { s.cue with entries := [], orderRef := none, phraseOpen := false })
    fun _ => .of_empty rfl
  silent.same

/-- The load takes the settings and starts the blocks; it leaves the source contexts and the EEPROM (R202). -/
theorem completeLoad (h : WritesOnly w room s₀ s) (settings : w .settings = true) (heat : w .heat = true)
    (loader : w .loader = true) (acked : Bool) (framed : LaneSet) : WritesOnly w room s₀ (completeLoad acked framed s) := by
  have started (t : Settings) (voicing : Vector VoicingRecord 88) (outcome : ImageOutcome) :
      WritesOnly w room s₀ (startBlocks framed t voicing outcome s) :=
    have silent := ((h.setSettings settings t).setCue (c := .atReset) fun _ => .of_empty rfl).setHeatMonitor heat
      (startBlocks framed t voicing outcome s).heat
    (silent.setLoader loader (l := { s.loader with ready := true, outcome := some outcome, commit := none })
      fun _ => rfl).same
  unfold Machine.completeLoad
  split
  · exact h
  · unfold noticeLoad
    split
    · split
      · exact (started _ _ _).raise _ _
      · exact started _ _ _
    · exact (started _ _ _).raise _ _

/-! ### The commit -/

theorem failCommit (h : WritesOnly w room s₀ s) (named : w .loader = true) (wordReached : Nat) :
    WritesOnly w room s₀ (failCommit wordReached s) :=
  (h.setLoader named (l := { s.loader with commit := none, lastCommit := .failed }) fun _ => rfl).raise _ _

theorem finishCommit (h : WritesOnly w room s₀ s) (named : w .loader = true) : WritesOnly w room s₀ (finishCommit s) :=
  (h.setLoader named (l := { s.loader with commit := none, lastCommit := .done }) fun _ => rfl).raise _ _

theorem completePage (h : WritesOnly w room s₀ s) (loader : w .loader = true) (eeprom : w .eeprom = true) (acked : Bool) :
    WritesOnly w room s₀ (completePage acked s) := by
  unfold Machine.completePage
  split
  · exact h
  · rename_i c _
    have written := h.setLoader loader (l := { s.loader with eeprom := writePage c s.loader.eeprom })
      fun free => Bool.noConfusion (eeprom.symm.trans free)
    unfold nextPage
    split
    · exact written.finishCommit loader
    · split
      · exact written.setLoader loader fun _ => rfl
      · exact written.failCommit loader _

theorem timeOutCommit (h : WritesOnly w room s₀ s) (named : w .loader = true) : WritesOnly w room s₀ (timeOutCommit s) := by
  unfold Machine.timeOutCommit
  split
  · exact h
  · split
    · exact h.failCommit named _
    · exact h

/-! ### The port (R193, R194) -/

theorem readRise (h : WritesOnly w room s₀ s) (clocked : Nat) : WritesOnly w room s₀ (readRise clocked s) := by
  have ended : WritesOnly w room s₀ (endIgnored s) := h.setPort id
  unfold Machine.readRise
  split
  · exact ended
  · split
    · exact ended
    · refine h.setPort fun ⟨intake, responses, notices⟩ => ?_
      split
      · unfold removeChosen
        split
        · exact ⟨intake, by rw [List.length_tail]; exact (Nat.sub_le _ 1).trans responses, notices⟩
        · exact ⟨intake, responses, by rw [List.length_tail]; exact (Nat.sub_le _ 1).trans notices⟩
        · exact ⟨intake, responses, notices⟩
      · exact ⟨intake, responses, notices⟩

theorem readTransaction (h : WritesOnly w room s₀ s) (phase : ReadPhase) : WritesOnly w room s₀ (readTransaction phase s) := by
  have fallen : WritesOnly w room s₀ (readFall s) := h.setPort id
  cases phase with
  | fall => exact fallen
  | rise clocked => exact h.readRise clocked
  | whole clocked => exact fallen.readRise clocked

/-- A frame joins an intake of fewer than 8 frames, or is discarded (R194). -/
theorem writeTransaction (h : WritesOnly w room s₀ s) (bytes : List Byte) : WritesOnly w room s₀ (writeTransaction bytes s) := by
  unfold Machine.writeTransaction
  split
  · exact h.setPort id
  · split
    · exact h
    · split
      · exact h
      · unfold offerFrame
        split
        · rename_i free
          refine h.setPort fun ⟨_, responses, notices⟩ => ⟨?_, responses, notices⟩
          rw [List.length_append]
          exact free
        · exact h.setPort id

end WritesOnly

end Sys2Proof.Machine
end

section
/-! The requests and the step: the tables each command may write, and the bounds every step keeps
(10_source_contexts R181 to R189; 11_host_port R193 to R206). -/

set_option Elab.async false

namespace Sys2Proof.Machine

namespace WritesOnly

variable {w : Table → Bool} {room : Nat} {s₀ s : State}

/-! ### The key table (R95 to R103) -/

theorem actPlayOpen (h : WritesOnly w room s₀ s) (arguments : List Byte) :
    WritesOnly w room s₀ (actPlayOpen arguments s).state := by
  unfold Machine.actPlayOpen
  split
  · split
    · exact h
    · split
      · exact h
      · unfold openNote
        dsimp only
        split
        · exact h.claim _
        all_goals exact h
  · exact h

theorem actPlayClose (h : WritesOnly w room s₀ s) (arguments : List Byte) :
    WritesOnly w room s₀ (actPlayClose arguments s).state := by
  unfold Machine.actPlayClose closeEvery closeOne
  split
  · exact h
  · split
    · dsimp only [answerOk]
      exact (h.closeAll _ _).settling none
    · split
      · exact h
      · split
        · exact (h.closeKey _ _ _).settling none
        · exact h

theorem actPlayCancel (h : WritesOnly w room s₀ s) (arguments : List Byte) :
    WritesOnly w room s₀ (actPlayCancel arguments s).state := by
  have cancelled (k : Key) : WritesOnly w room s₀ (cancelNote k s) := h.same
  unfold Machine.actPlayCancel
  split
  · exact h
  · dsimp only
    split
    · exact (cancelled _).settling none
    · exact h

theorem actAllOff (h : WritesOnly w room s₀ s) (arguments : List Byte) :
    WritesOnly w room s₀ (actAllOff arguments s).state := (h.silenceKeys.settling none).same

theorem actQuietSet (h : WritesOnly w room s₀ s) (arguments : List Byte) :
    WritesOnly w room s₀ (actQuietSet arguments s).state := by
  unfold Machine.actQuietSet
  split
  · rename_i on _
    cases on with
    | true => exact (h.silenceKeys.settling none).same
    | false => exact h.same
  · exact h

theorem amendFlags (h : WritesOnly w room s₀ s) (k : Key) (setMask clearMask : Byte) :
    WritesOnly w room s₀ (amendFlags k setMask clearMask s) := by
  have muted {u : State} (kept : WritesOnly w room s₀ u) : WritesOnly w room s₀ (muteNote k u) := by
    unfold muteNote
    split
    · split
      · exact unsenseStrike kept.same k
      · exact kept
    · exact kept.same
    · exact kept
  refine timeOutIfDue ?_ k
  split
  · exact muted h.same
  · exact h.same

theorem actKeyAmend (h : WritesOnly w room s₀ s) (arguments : List Byte) :
    WritesOnly w room s₀ (actKeyAmend arguments s).state := by
  have amended (k : Key) (setMask clearMask : Byte) (level : AmendLevel) :
      WritesOnly w room s₀ (amendKey k setMask clearMask level s) := by
    have flagged := h.amendFlags k setMask clearMask
    cases level with
    | given level =>
      refine settling (f := fun u => amendLevel k level (Machine.amendFlags k setMask clearMask u)) ?_ _
      unfold amendLevel
      split
      · exact flagged.same
      · exact flagged
    | keep => exact flagged.settling none
    | bad => exact flagged.settling none
  unfold Machine.actKeyAmend
  dsimp only
  split
  · exact h
  · split
    · exact h
    · split
      · exact h
      · exact amended _ _ _ _

theorem actKeyRetire (h : WritesOnly w room s₀ s) (arguments : List Byte) :
    WritesOnly w room s₀ (actKeyRetire arguments s).state := by
  unfold Machine.actKeyRetire
  split
  · exact h
  · split
    · exact h
    · exact (h.retireKey _ _).settling none

theorem actKeyRestore (h : WritesOnly w room s₀ s) (arguments : List Byte) :
    WritesOnly w room s₀ (actKeyRestore arguments s).state := by
  unfold Machine.actKeyRestore
  split
  · exact h
  · split
    · exact h.same
    · exact h

/-! ### The roll, the apertures and the expression unit -/

theorem actRollStart (h : WritesOnly w room s₀ s) (arguments : List Byte) :
    WritesOnly w room s₀ (actRollStart arguments s).state := by
  unfold Machine.actRollStart
  split
  · exact h.same
  · exact h

theorem actRollStop (h : WritesOnly w room s₀ s) (arguments : List Byte) :
    WritesOnly w room s₀ (actRollStop arguments s).state := by
  unfold Machine.actRollStop stopRoll
  dsimp only [answerOk]
  split
  · exact h
  · exact h.same
  · exact h.same
  · exact h.departure _

theorem actApertureClose (h : WritesOnly w room s₀ s) (arguments : List Byte) :
    WritesOnly w room s₀ (actApertureClose arguments s).state := by
  have blind (c : Channel) : WritesOnly w room s₀ (blindRecord c s) := h.same
  have closed (c : Channel) (m : Option Mapping) : WritesOnly w room s₀ (sendClose c m (blindRecord c s)) :=
    (blind c).event (((EventUpdate.sendControl c _ _).trans (.sendNoteClose c _ _)).trans (.sendPedal c _ _))
  unfold Machine.actApertureClose
  split
  · unfold closeAperture
    dsimp only [answerOk]
    split
    · exact blind _
    · exact blind _
    · exact closed _ _
    · exact closed _ _
  · exact h

theorem actExprSet (h : WritesOnly w room s₀ s) (arguments : List Byte) :
    WritesOnly w room s₀ (actExprSet arguments s).state := by
  unfold Machine.actExprSet
  split
  · exact h
  · split
    · exact h
    · exact h.setHalf _ _

/-! ### The pedals (R171 to R176) -/

theorem actPedalSet (h : WritesOnly w room s₀ s) (arguments : List Byte) :
    WritesOnly w room s₀ (actPedalSet arguments s).state := by
  unfold Machine.actPedalSet
  split
  · exact h
  · split
    · exact h
    · exact h.cuePedal _ _

theorem actPedalYield (h : WritesOnly w room s₀ s) (arguments : List Byte) :
    WritesOnly w room s₀ (actPedalYield arguments s).state := by
  unfold Machine.actPedalYield
  split
  · exact h
  · split
    · exact h
    · split
      · exact h
      · exact h.setPedal _ _

theorem actPedalClearFault (h : WritesOnly w room s₀ s) (arguments : List Byte) :
    WritesOnly w room s₀ (actPedalClearFault arguments s).state := by
  unfold Machine.actPedalClearFault
  split
  · exact h
  · split
    · exact h.setPedal _ _
    · exact h

/-! ### The source contexts and the cue queue (R181, R183, R189) -/

theorem actContextWrite (h : WritesOnly w room s₀ s) (named : w .contexts = true) (arguments : List Byte) :
    WritesOnly w room s₀ (actContextWrite arguments s).state := by
  unfold Machine.actContextWrite contextChange
  split
  · rename_i source c _ _
    have written := h.setContext named source c
    dsimp only [answerOk]
    split
    · exact (written.withdrawSource source).settling none
    · split
      · exact (written.silenceOutside source _ _).settling none
      · exact written
  · exact h

theorem actCuePush (h : WritesOnly w room s₀ s) (arguments : List Byte) :
    WritesOnly w room s₀ (actCuePush arguments s).state := by
  have pushed : WritesOnly w room s₀
      (s.setCue (pushEntries (arguments.getD 0 0) (frameEntries arguments) 0 s.cue).cue) :=
    h.setCue fun fits => fits.push _ _ _
  unfold Machine.actCuePush
  dsimp only
  split
  · exact pushed.serviceCue
  · exact pushed

theorem actCueFlush (h : WritesOnly w room s₀ s) (arguments : List Byte) :
    WritesOnly w room s₀ (actCueFlush arguments s).state := h.setCue fun _ => .of_empty rfl

/-! ### The settings, the voicing table and the commit (R161, R199, R203) -/

theorem settingEffect (h : WritesOnly w room s₀ s) (x : Setting) (v : Nat) : WritesOnly w room s₀ (settingEffect x v s) := by
  have unsensed : WritesOnly w room s₀ (unsenseAll s) := h.foldl_keys (fun k _ kept => by
    unfold unsenseIfSensed
    split
    · exact kept.unsenseStrike k
    · exact kept) allKeys
  have timedOut : WritesOnly w room s₀ (timeOutDue s) := h.foldl_keys (fun k _ kept => kept.timeOutIfDue k) allKeys
  unfold Machine.settingEffect
  split
  · split
    · exact h.same
    · exact h
  · exact timedOut.settling none
  · split
    · exact unsensed.settling none
    · exact h
  · exact h.reexamineHead
  · exact h.serviceCue
  · exact h.serviceCue
  · split
    · exact h.same
    · exact h

theorem actConfigWrite (h : WritesOnly w room s₀ s) (named : w .settings = true) (pin : Bool) (arguments : List Byte) :
    WritesOnly w room s₀ (actConfigWrite pin arguments s).state := by
  have sampled : WritesOnly w room s₀ { s with servicePin := pin } := h.same
  unfold Machine.actConfigWrite
  dsimp only
  split
  · exact sampled
  · rename_i x _
    split
    · exact sampled
    · rcases writeSetting_spec x (arg32 arguments 1) { s with servicePin := pin } with ⟨r, -, e⟩ | ⟨-, -, -, -, e⟩ <;>
        rw [e]
      · exact sampled
      · exact (sampled.setSettings named _).settingEffect x _

theorem actVoiceWrite (h : WritesOnly w room s₀ s) (arguments : List Byte) :
    WritesOnly w room s₀ (actVoiceWrite arguments s).state := by
  unfold Machine.actVoiceWrite
  split
  · exact h
  · split
    · exact h
    · split
      · exact h.same
      · exact h

theorem actVoiceCommit (h : WritesOnly w room s₀ s) (named : w .loader = true) (pin acked : Bool)
    (arguments : List Byte) : WritesOnly w room s₀ (actVoiceCommit pin acked arguments s).state := by
  have sampled : WritesOnly w room s₀ (readPin pin s) := h.same
  unfold Machine.actVoiceCommit beginCommit
  dsimp only
  split
  · exact sampled
  · split
    · exact sampled
    · dsimp only [answerOk]
      split
      · exact sampled.setLoader named fun _ => rfl
      · exact sampled.failCommit named 0

end WritesOnly

/-! ### The commands -/

/-- The tables a command may write (R138, R143, R181, R199, R202, R203, R204). -/
def mayWrite : Instr → Table → Bool
  | .fullReset _, _ => true
  | .imageLoadComplete _ _ _, .settings => true
  | .imageLoadComplete _ _ _, .heat => true
  | .imageLoadComplete _ _ _, .loader => true
  | .configWrite _ _, .settings => true
  | .contextWrite _, .contexts => true
  | .heatStep _, .heat => true
  | .voiceCommit _ _ _, .loader => true
  | .commitPageWritten _ _, .loader => true
  | .commitPageWritten _ _, .eeprom => true
  | .commitAckTimeout _, .loader => true
  | _, _ => false

/-- Every command writes only its tables and keeps the bounds of the queues. -/
theorem exec_writesOnly {s s' : State} (c : Instr) (run : exec c s = .next s') :
    WritesOnly (mayWrite c) 16 s s' := by
  have came {w : Table → Bool} (t : Time) : WritesOnly w 16 s (s.arrive t) := (WritesOnly.refl s).arrive t
  have query {w : Table → Bool} {code : Nat} {whileLoading : Bool} {act : List Byte → State → Answer} {t : Time}
      (reads : ∀ arguments u, ∃ pin, (act arguments u).state = { u with servicePin := pin }) :
      WritesOnly w 16 s (serveRequest code whileLoading act (s.arrive t)) :=
    (came t).serveRequest (fun arguments u => by
      obtain ⟨pin, own⟩ := reads arguments u
      rw [own]
      exact (WritesOnly.refl u).same) _ _
  have served {w : Table → Bool} {code : Nat} {whileLoading : Bool} {act : List Byte → State → Answer} {t : Time}
      (effect : ∀ arguments {u}, WritesOnly w 15 u u → WritesOnly w 15 u (act arguments u).state) :
      WritesOnly w 16 s (serveRequest code whileLoading act (s.arrive t)) :=
    (came t).serveRequest (fun arguments u => effect arguments (.refl u)) _ _
  cases c <;> obtain rfl := Host.Outcome.next.inj run
  case fullReset lines => exact ⟨nofun, nofun, nofun, nofun, nofun, fun _ => .of_empty rfl,
    fun _ => ⟨Nat.zero_le _, Nat.zero_le _, Nat.zero_le _⟩⟩
  case imageLoadComplete t acked framed => exact (came t).completeLoad rfl rfl rfl acked framed
  case segmentArrival t lane bytes => exact (came t).takeBurstOn lane bytes
  case lineTimerExpiry t => exact (came t).expireLineTimer
  case strikeQueueHeadTimer t => exact (came t).expireHeadTimer
  case strikeEndTimerExpiry t number => exact (came t).onKey (came t).expireStrike number
  case gapEnd t number => exact (came t).onKey (came t).endGap number
  case releaseTime t number => exact (came t).onKey (came t).reachRelease number
  case expressionStep t => exact (came t).stepExpression
  case heatStep t => exact (came t).stepHeat rfl
  case pedalStep t => exact (came t).stepServo
  case pedalFault t p => exact (came t).settleTimeout p
  case pedalEventDue t p => exact (came t).setPedal p _
  case hubReport t b => exact (came t).completeReport b
  case hubBurstEnd t => exact (came t).endBurst
  case hubByteReceived t b => exact (came t).receiveByte b
  case cueEntryDue t => exact (came t).serviceCue
  case spiWriteTransaction t bytes => exact (came t).writeTransaction bytes
  case spiReadTransaction t phase => exact (came t).readTransaction phase
  case badRequest t => exact (came t).serveBadRequest
  case commitPageWritten t acked => exact (came t).completePage rfl rfl acked
  case commitAckTimeout t => exact (came t).timeOutCommit rfl
  case status t pin => exact query fun _ _ => ⟨pin, rfl⟩
  case timeRead t => exact query fun _ u => ⟨u.servicePin, rfl⟩
  case configRead t => exact query fun _ u => ⟨u.servicePin, by unfold actConfigRead; split <;> rfl⟩
  case rollQuery t => exact query fun _ u => ⟨u.servicePin, rfl⟩
  case apertureQuery t => exact query fun _ u => ⟨u.servicePin, by unfold actApertureQuery; split <;> rfl⟩
  case exprQuery t => exact query fun _ u => ⟨u.servicePin, by unfold actExprQuery; split <;> rfl⟩
  case keyQuery t => exact query fun _ u => ⟨u.servicePin, by unfold actKeyQuery; split <;> rfl⟩
  case pedalQuery t => exact query fun _ u => ⟨u.servicePin, by unfold actPedalQuery; split <;> rfl⟩
  case contextRead t => exact query fun _ u => ⟨u.servicePin, by unfold actContextRead; split <;> rfl⟩
  case cueQuery t => exact query fun _ u => ⟨u.servicePin, rfl⟩
  case voiceRead t => exact query fun _ u => ⟨u.servicePin, by unfold actVoiceRead; split <;> rfl⟩
  case configWrite t pin => exact served fun x _ h => h.actConfigWrite rfl pin x
  case performanceReset t => exact served fun _ _ h => h.performanceResetState
  case rollStart t => exact served fun x _ h => h.actRollStart x
  case rollStop t => exact served fun x _ h => h.actRollStop x
  case apertureClose t => exact served fun x _ h => h.actApertureClose x
  case exprSet t => exact served fun x _ h => h.actExprSet x
  case playOpen t => exact served fun x _ h => h.actPlayOpen x
  case playClose t => exact served fun x _ h => h.actPlayClose x
  case playCancel t => exact served fun x _ h => h.actPlayCancel x
  case allOff t => exact served fun x _ h => h.actAllOff x
  case quietSet t => exact served fun x _ h => h.actQuietSet x
  case keyAmend t => exact served fun x _ h => h.actKeyAmend x
  case keyRetire t => exact served fun x _ h => h.actKeyRetire x
  case keyRestore t => exact served fun x _ h => h.actKeyRestore x
  case pedalSet t => exact served fun x _ h => h.actPedalSet x
  case pedalYield t => exact served fun x _ h => h.actPedalYield x
  case pedalClearFault t => exact served fun x _ h => h.actPedalClearFault x
  case contextWrite t => exact served fun x _ h => h.actContextWrite rfl x
  case cuePush t => exact served fun x _ h => h.actCuePush x
  case cueFlush t => exact served fun x _ h => h.actCueFlush x
  case voiceWrite t => exact served fun x _ h => h.actVoiceWrite x
  case voiceCommit t pin acked => exact served fun x _ h => h.actVoiceCommit rfl pin acked x

/-! ### The step -/

/-- Every step, with a command or with a KEY_FIND alone, keeps the bounds of the queues. -/
theorem step_keeps_queues {s s' : State} (run : step s = .next s') :
    (CueFits s.cue → CueFits s'.cue) ∧ (PortFits 16 s.port → PortFits 16 s'.port) := by
  unfold step at run
  split at run
  · obtain rfl := Host.Outcome.next.inj run
    have idled : WritesOnly (fun _ => false) 16 s (idle s) := (WritesOnly.refl s).idle
    exact ⟨idled.cue, idled.port⟩
  · rename_i c rest _
    have taken := exec_writesOnly c run
    exact ⟨taken.cue, taken.port⟩

/-- Settles O15: a push tests order and room entry by entry, every other event only takes entries away, and each of the
port's queues is tested before a frame joins it. -/
theorem queuesKeepBounds : Obligations.QueuesKeepBounds :=
  ⟨fun _ _ safe run => (step_keeps_queues run).1 safe, fun _ _ safe run => (step_keeps_queues run).2 safe⟩

/-- Settles O8: each command writes only the tables it names. -/
theorem onlyNamedCommandsChangeTables : Obligations.OnlyNamedCommandsChangeTables := by
  refine ⟨fun c s s' run => ?parameters, fun c s s' run => ?voicing, fun c s s' run => ?heat, fun c s s' run => ?image⟩
  case parameters =>
    obtain ⟨settings, contexts, -, -, -, -, -⟩ := exec_writesOnly c run
    cases c
    case fullReset => trivial
    case imageLoadComplete | configWrite => exact contexts rfl
    case contextWrite => exact settings rfl
    all_goals exact ⟨settings rfl, contexts rfl⟩
  case voicing =>
    have kept := exec_voicing (s' := s') c (run := run)
    cases c
    case fullReset | imageLoadComplete | voiceWrite | hubReport | hubByteReceived => trivial
    all_goals exact kept rfl
  case heat =>
    obtain ⟨-, -, heat, -, -, -, -⟩ := exec_writesOnly c run
    cases c
    case fullReset | imageLoadComplete | heatStep => trivial
    all_goals exact heat rfl
  case image =>
    obtain ⟨-, -, -, loader, eeprom, -, -⟩ := exec_writesOnly c run
    cases c
    case fullReset | commitPageWritten => trivial
    case imageLoadComplete | voiceCommit | commitAckTimeout => exact eeprom rfl
    all_goals exact loader rfl

end Sys2Proof.Machine
end

section
/-! What TIME_READ, CONFIG_READ, CONTEXT_READ and VOICE_READ answer (08_hammer_sensing R160, 10_source_contexts R180,
11_host_port R198, R199). -/

set_option Elab.async false

namespace Sys2Proof.Machine

/-! ### CONFIG_READ (R199) -/

theorem settingOfNumber_none {n : Nat} (out : n = 0 ∨ 43 < n) : settingOfNumber n = none := by
  unfold settingOfNumber
  rcases out with rfl | above
  · rfl
  · rw [if_neg (by omega)]
    exact List.getElem?_eq_none (Nat.le_sub_one_of_lt above)

theorem row_number_lt (x : Setting) : x.row.number < 256 := by cases x <;> decide

theorem actConfigRead_of_setting (x : Setting) (s : State) :
    actConfigRead [byteOf x.row.number] s = answerOk s (field32 (s.setting x)) := by
  rw [actConfigRead, argByte_byteOf (row_number_lt x), settingOfNumber_number]

theorem actConfigRead_of_other {n : Nat} (out : n = 0 ∨ 43 < n) (byte : n < 256) (s : State) :
    actConfigRead [byteOf n] s = refuse s .badArgument := by
  rw [actConfigRead, argByte_byteOf byte, settingOfNumber_none out]

/-! ### CONTEXT_READ (R180) -/

theorem actContextRead_of_source (source : Source) (s : State) :
    actContextRead [match source with | .roll => 0 | .cue => 1] s = answerOk s (contextData (s.context source)) := by
  cases source <;> rfl

theorem actContextRead_of_other {b : Byte} (other : 2 ≤ b.toNat) (s : State) :
    actContextRead [b] s = refuse s .badArgument := by
  have unnamed : sourceOfNumber (argByte [b] 0) = none := by
    obtain ⟨m, e⟩ := Nat.exists_eq_add_of_le' other
    show sourceOfNumber b.toNat = none
    rw [e]
    rfl
  rw [actContextRead, unnamed]

/-! ### VOICE_READ (R160) -/

/-- A field of two bytes holds a number as a word does. -/
theorem field16_ofNat (v : Nat) : field16 (BitVec.ofNat 16 v).toNat = field16 v := by
  simp only [field16_eq, byteOf, BitVec.toNat_ofNat, List.cons.injEq, and_true]
  constructor <;> apply BitVec.eq_of_toNat_eq <;> simp only [BitVec.toNat_ofNat] <;> omega

/-- The words of a curve, one after another. -/
theorem curve_fields (curve : Vector Nat 8) (word : Nat → Word16)
    (each : ∀ j : Fin 8, word j = BitVec.ofNat 16 curve[j]) :
    (List.range 8).flatMap (fun j => field16 (word j).toNat) = curve.toList.flatMap field16 := by
  have values : curve.toList = (List.finRange 8).map fun j => curve[j] := by
    apply List.ext_getElem <;> simp
  rw [values, List.flatMap_map, ← List.map_coe_finRange_eq_range, List.flatMap_map]
  simp only [each, field16_ofNat]

/-- The 19 words of a record: its two curves, the hold duty, the soft trim and the repeat gap. -/
theorem voicingData_eq (r : VoicingRecord) : voicingData r =
    r.duties.toList.flatMap field16 ++ r.flights.toList.flatMap field16 ++ field16 r.holdDuty ++ field16Int r.softTrim ++
      field16 r.repeatGap := by
  show (List.range (8 + (8 + 3))).flatMap (fun j => field16 (recordWord r j).toNat) = _
  rw [List.range_add, List.range_add, List.map_append, List.flatMap_append, List.flatMap_append,
    curve_fields r.duties _ (recordWord_duty r), List.flatMap_map, curve_fields r.flights _ (recordWord_flight r),
    ← field16_ofNat r.holdDuty, ← field16_ofNat r.repeatGap]
  simp only [List.append_assoc]
  rfl

theorem actVoiceRead_of_key (k : Key) (s : State) :
    actVoiceRead [byteOf (keyNumber k)] s = answerOk s (voicingData (s.voice k)) := by
  rw [actVoiceRead, keyOfNumber_argByte (i := 0) rfl]

theorem actVoiceRead_of_other {n : Nat} (out : n = 0 ∨ 88 < n) (byte : n < 256) (s : State) :
    actVoiceRead [byteOf n] s = refuse s .badArgument := by
  rw [actVoiceRead, keyOfNumber_argByte_of_other (i := 0) rfl out byte]

/-- Settles O56: each request reads the value it names, or names none. -/
theorem valueReadsComplete : Obligations.ValueReadsComplete := by
  intro s a t tag arrived
  refine ⟨fun head => ?time, fun x head => ?setting, fun n out byte head => ?noSetting, fun source head => ?context,
    fun b other head => ?noSource, fun k head => ?voice, fun n out byte head => ?noKey⟩
  case time => exact exec_of_answer (act := actTimeRead) rfl arrived head rfl rfl
  case setting => exact exec_of_answer rfl arrived head rfl (actConfigRead_of_setting x a.dropHead)
  case noSetting => exact exec_of_answer rfl arrived head rfl (actConfigRead_of_other out byte a.dropHead)
  case context =>
    exact exec_of_answer rfl arrived head rfl (actContextRead_of_source source a.dropHead)
  case noSource => exact exec_of_answer rfl arrived head rfl (actContextRead_of_other other a.dropHead)
  case voice =>
    rw [exec_of_answer rfl arrived head rfl (actVoiceRead_of_key k a.dropHead), voicingData_eq]
    rfl
  case noKey => exact exec_of_answer rfl arrived head rfl (actVoiceRead_of_other out byte a.dropHead)

end Sys2Proof.Machine
end

section
/-! CONTEXT_WRITE: the block it carries, and the keys it withdraws or silences (05_the_key_table R107,
10_source_contexts R179, R181). -/

set_option Elab.async false

namespace Sys2Proof.Machine

/-! ### The block of a request (R179, R181) -/

theorem signedValue_byteOfInt {v : Int} (low : -128 ≤ v) (high : v ≤ 127) : signedValue 8 (byteOfInt v).toNat = v := by
  rw [signedValue, byteOfInt, BitVec.ofNat_toNat, BitVec.setWidth_eq, BitVec.toInt_ofInt]
  exact Int.bmod_eq_of_le (by omega) (by omega)

/-- The bytes that CONTEXT_READ answers carry the same block in a CONTEXT_WRITE. -/
theorem parseBlock_contextData (b : Byte) {c : ContextBlock} (priority : c.priority < 256) (low : -128 ≤ c.transpose)
    (high : c.transpose ≤ 127) (keyLow : c.keyLow < 256) (keyHigh : c.keyHigh < 256) (levelScale : c.levelScale < 65536) :
    parseBlock (b :: contextData c) = if c.valid then some c else none := by
  have enabled : boolOfNumber (argByte (b :: contextData c) 1) = some c.enabled := by
    show boolOfNumber (if c.enabled then 1 else 0 : Byte).toNat = _
    cases c.enabled <;> rfl
  have byte1 : argByte (b :: contextData c) 2 = c.priority := byteOf_toNat _ priority
  have byte2 : signedValue 8 (argByte (b :: contextData c) 3) = c.transpose := signedValue_byteOfInt low high
  have byte3 : argByte (b :: contextData c) 4 = c.keyLow := byteOf_toNat _ keyLow
  have byte4 : argByte (b :: contextData c) 5 = c.keyHigh := byteOf_toNat _ keyHigh
  have scale : arg16 (b :: contextData c) 6 = c.levelScale := valueOf_field16 _ levelScale
  unfold parseBlock
  rw [enabled, byte1, byte2, byte3, byte4, scale]

/-- The source byte of a CONTEXT_WRITE. -/
def contextArguments (source : Source) (c : ContextBlock) : List Byte :=
  (match source with | .roll => 0 | .cue => 1 : Byte) :: contextData c

section
variable {source : Source} {c : ContextBlock} {s : State} (priority : c.priority < 256) (low : -128 ≤ c.transpose)
  (high : c.transpose ≤ 127) (keyLow : c.keyLow < 256) (keyHigh : c.keyHigh < 256) (levelScale : c.levelScale < 65536)
include priority low high keyLow keyHigh levelScale

theorem actContextWrite_eq : actContextWrite (contextArguments source c) s =
    if c.valid then answerOk (contextChange source (s.context source) c (s.setContext source c)) []
    else refuse s .badArgument := by
  have named : sourceOfNumber (argByte (contextArguments source c) 0) = some source := by cases source <;> rfl
  have parsed : parseBlock (contextArguments source c) = if c.valid then some c else none :=
    parseBlock_contextData _ priority low high keyLow keyHigh levelScale
  rw [actContextWrite, named, parsed]
  cases c.valid <;> rfl

end

/-! ### The keys of the source (R107) -/

section
variable {source : Source} {old new : ContextBlock} {s : State}

theorem contextChange_of_disabling (was : old.enabled = true) (disabled : new.enabled = false) :
    contextChange source old new s = settling none (withdrawSource source) s := by
  rw [contextChange, was, disabled]
  rfl

theorem contextChange_of_narrowing (kept : old.enabled = false ∨ new.enabled = true)
    (narrower : old.keyLow < new.keyLow ∨ new.keyHigh < old.keyHigh) :
    contextChange source old new s = settling none (silenceOutside source new.keyLow new.keyHigh) s := by
  have narrowed : narrows old new = true := decide_eq_true narrower
  unfold contextChange
  rw [if_neg (by rcases kept with e | e <;> simp [e]), if_pos narrowed]

theorem contextChange_of_widening (kept : old.enabled = false ∨ new.enabled = true) (low : new.keyLow ≤ old.keyLow)
    (high : old.keyHigh ≤ new.keyHigh) : contextChange source old new s = s := by
  have spared : narrows old new = false := decide_eq_false (by omega)
  unfold contextChange
  rw [if_neg (by rcases kept with e | e <;> simp [e]), spared]
  rfl

/-- Whatever becomes of the keys, nothing changes but them and the strike queue. -/
theorem contextChange_frame (source : Source) (old new : ContextBlock) (s : State) :
    ∃ keys queue, contextChange source old new s = { s with keys := keys, queue := queue } := by
  have settled {f : State → State} (frame : ∃ keys queue, f s = { s with keys := keys, queue := queue }) :
      ∃ keys queue, settling none f s = { s with keys := keys, queue := queue } := by
    obtain ⟨_, _, own⟩ := frame
    obtain ⟨keys, queue, e, -⟩ := settling_frame none f s
    rw [own] at e
    exact ⟨keys, queue, e⟩
  unfold contextChange
  split
  · exact settled (withdrawSource_frame source s)
  · split
    · exact settled (f := silenceOutside source new.keyLow new.keyHigh) ⟨_, _, rfl⟩
    · exact ⟨_, _, rfl⟩

variable {low high : Nat} {k : Key}

/-- A key of the source outside the range is silenced, and the examination of the head leaves it so. -/
theorem silenceOutside_key_of_outside (owned : ownedBy source (s.key k).phase = true)
    (outside : keyNumber k < low ∨ high < keyNumber k) :
    ((settling none (silenceOutside source low high) s).key k).phase =
      silencedPhase (gapEndNow s k) (s.key k).phase := by
  have out : decide (low ≤ keyNumber k ∧ keyNumber k ≤ high) = false := decide_eq_false (by omega)
  have silenced : (silenceOutside source low high s).key k =
      { s.key k with phase := silencedPhase (gapEndNow s k) (s.key k).phase } := by
    rw [silenceOutside, updatePhases_key, owned, out]
    rfl
  obtain ⟨still, -⟩ := silencedPhase_silent (gapEndNow s k) (s.key k).phase
  rw [settling_key none _ s (by rw [silenced]; exact still), silenced]

/-- Any other key that does not wait for launch is left as it was. -/
theorem silenceOutside_key_of_spared
    (spared : ownedBy source (s.key k).phase = false ∨ (low ≤ keyNumber k ∧ keyNumber k ≤ high))
    (waits : isPending (s.key k).phase = false) :
    (settling none (silenceOutside source low high) s).key k = s.key k := by
  have left : (silenceOutside source low high s).key k = s.key k := by
    rw [silenceOutside, updatePhases_key, if_neg]
    rcases spared with other | inside
    · simp [other]
    · simp [inside]
  rw [settling_key none _ s (by rw [left]; exact waits), left]

end

theorem silencedPhase_of_pending {gapEnd : Time} {p : KeyPhase} (pending : isPending p = true) :
    silencedPhase gapEnd p = .idle := by
  cases p with
  | pending n v => rfl
  | _ => cases pending

theorem State.setContext_frame (s : State) (source : Source) (c : ContextBlock) :
    ∃ contexts, s.setContext source c = { s with contexts := contexts } := by
  cases source <;> exact ⟨_, rfl⟩

/-- Settles O54: the block replaced or refused, and the three cases of R107 on the keys of its source. -/
theorem contextWriteCompletes : Obligations.ContextWriteCompletes := by
  intro s a t tag source c arrived priority low high keyLow keyHigh levelScale head
  have parsed := actContextWrite_eq (source := source) (s := a.dropHead) priority low high keyLow keyHigh levelScale
  refine ⟨fun invalid => ?refused, fun valid => ?written⟩
  case refused =>
    rw [invalid] at parsed
    exact exec_of_answer rfl arrived head rfl parsed
  case written =>
    rw [if_pos valid] at parsed
    have own := a.dropHead.context_setContext_same source c
    have other := fun o (differs : o ≠ source) => a.dropHead.context_setContext_ne source o c differs.symm
    obtain ⟨contexts, put⟩ := a.dropHead.setContext_frame source c
    rw [put] at parsed own other
    obtain ⟨keys, queue, changed⟩ := contextChange_frame source (a.context source) c
      { a.dropHead with contexts := contexts }
    have same : contextChange source (a.dropHead.context source) c { a.dropHead with contexts := contexts } =
      { a.dropHead with contexts := contexts, keys := keys, queue := queue } := changed
    rw [same] at parsed
    refine ⟨_, exec_of_effect rfl arrived head rfl parsed, own, other, rfl, rfl, rfl, rfl, rfl, rfl,
      fun was disabled k => ?disabled, fun kept => ⟨fun lower higher => ?wide, fun narrower k => ?narrow⟩⟩
    case disabled =>
      rw [contextChange_of_disabling was disabled] at changed
      have withdrawn := withdrawnKey_of_withdrawSource source { a.dropHead with contexts := contexts } k
      rw [changed] at withdrawn
      exact withdrawn
    case wide =>
      rw [contextChange_of_widening kept lower higher] at changed
      exact ⟨(congrArg State.keys changed).symm, (congrArg State.queue changed).symm⟩
    case narrow =>
      rw [contextChange_of_narrowing kept narrower] at changed
      refine ⟨fun owned outside => ?outside, fun spared waits => ?spared⟩
      case outside =>
        have silenced := silenceOutside_key_of_outside (s := { a.dropHead with contexts := contexts }) owned outside
        rw [changed] at silenced
        refine ⟨fun pending => ?_, fun sounding => ?_, fun m g waiting => ?_⟩
        · exact silenced.trans (silencedPhase_of_pending pending)
        · exact silenced.trans (silencedPhase_of_sounding sounding)
        · refine silenced.trans ?_
          show silencedPhase _ (a.key k).phase = _
          rw [waiting]
          rfl
      case spared =>
        have left := silenceOutside_key_of_spared (s := { a.dropHead with contexts := contexts }) spared waits
        rw [changed] at left
        exact left

end Sys2Proof.Machine
end

section
/-! CUE_PUSH and CUE_FLUSH: the entries of a frame, the push entry by entry, and the examination of a new head
(10_source_contexts R182 to R184, R189). -/

set_option Elab.async false

namespace Sys2Proof.Machine

/-! ### The entries of a frame (R183) -/

/-- The fields of an entry's bytes decide what it is read as. -/
theorem parseEntry_fields (cueId : Byte) {w : Nat} (word : w < 65536) (n : Byte) (time : Time) :
    parseEntry cueId (field16 w ++ [n] ++ fieldTime time) =
      match w / 16384 with
      | 0 => (keyOfNumber n.toNat).map fun k => .on k cueId (entryLevel w) time
      | 1 => if n.toNat = 0 then some (.off none cueId time)
             else (keyOfNumber n.toNat).map fun k => .off (some k) cueId time
      | 2 => (pedalOfNumber n.toNat).map fun p => .pedal p (w % 1024) time
      | _ => some (.endPhrase time) := by
  have kind : entryWord (field16 w ++ [n] ++ fieldTime time) = w := valueOf_field16 w word
  have number : argByte (field16 w ++ [n] ++ fieldTime time) 2 = n.toNat := rfl
  have timed : argTime (field16 w ++ [n] ++ fieldTime time) 3 = time := by
    have read := argTime_append (field16 w ++ [n]) [] time
    rwa [List.append_nil] at read
  unfold parseEntry
  rewrite [kind, number, timed]
  rfl

theorem parseEntry_of_bytes {cueId : Byte} {e : CueEntry} {bytes : List Byte} (entry : EntryBytes cueId e bytes) :
    parseEntry cueId bytes = some e := by
  obtain ⟨w, n, rfl, fields⟩ := entry
  cases e with
  | on key id level time =>
    obtain ⟨bound, rfl, rfl, levelled⟩ := fields
    have kind : w / 16384 = 0 := by omega
    have level : entryLevel w = level := by
      rcases levelled with ⟨below, rfl⟩ | ⟨above, rfl⟩
      · exact if_neg (by omega)
      · exact if_pos (by omega)
    rw [parseEntry_fields _ (by omega), kind, byteOf_keyNumber, keyOfNumber_keyNumber, level]
    rfl
  | off key id time =>
    obtain ⟨low, high, rfl, named⟩ := fields
    have kind : w / 16384 = 1 := by omega
    rw [parseEntry_fields _ (by omega), kind]
    rcases named with ⟨rfl, rfl⟩ | ⟨k, rfl, rfl⟩
    · rfl
    · have some : keyNumber k ≠ 0 := Nat.succ_ne_zero _
      rw [byteOf_keyNumber, keyOfNumber_keyNumber]
      exact if_neg some
  | pedal p position time =>
    obtain ⟨low, high, rfl, rfl⟩ := fields
    have kind : w / 16384 = 2 := by omega
    rw [parseEntry_fields _ (by omega), kind, pedalOfNumber_byteOf]
    rfl
  | endPhrase time =>
    obtain ⟨low, high⟩ := fields
    have kind : w / 16384 = 3 := by omega
    rw [parseEntry_fields _ (by omega), kind]
    rfl

theorem parseEntry_of_outOfRange {cueId : Byte} {bytes : List Byte} (out : EntryOutOfRange bytes) :
    parseEntry cueId bytes = none := by
  obtain ⟨w, n, time, rfl, ⟨bound, unnamed⟩ | ⟨low, high, above⟩ | ⟨low, high, above⟩⟩ := out
  · have kind : w / 16384 = 0 := by omega
    have key : keyOfNumber n.toNat = none := keyOfNumber_none _ (unnamed.imp_left (congrArg BitVec.toNat))
    rw [parseEntry_fields _ (by omega), kind, key]
    rfl
  · have kind : w / 16384 = 1 := by omega
    have some : n.toNat ≠ 0 := by omega
    rw [parseEntry_fields _ (by omega), kind, keyOfNumber_none _ (.inr above)]
    exact if_neg some
  · have kind : w / 16384 = 2 := by omega
    rw [parseEntry_fields _ (by omega), kind, pedalOfNumber_of_other above]
    rfl

theorem EntryBytes.length {cueId : Byte} {e : CueEntry} {bytes : List Byte} (entry : EntryBytes cueId e bytes) :
    bytes.length = 7 := by
  obtain ⟨w, n, rfl, -⟩ := entry
  rfl

theorem entryBytes_lengths {cueId : Byte} {taken : List CueEntry} {frames : List (List Byte)}
    (entries : List.Forall₂ (EntryBytes cueId) taken frames) : ∀ f ∈ frames, f.length = 7 := by
  induction entries with
  | nil => exact List.forall_mem_nil _
  | cons entry _ ih => exact List.forall_mem_cons.mpr ⟨entry.length, ih⟩

/-- Entries of 7 bytes each, one after another. -/
theorem flatten_length {frames : List (List Byte)} (each : ∀ f ∈ frames, f.length = 7) :
    frames.flatten.length = 7 * frames.length := by
  induction frames with
  | nil => rfl
  | cons f frames ih =>
    obtain ⟨first, later⟩ := List.forall_mem_cons.mp each
    rw [List.flatten_cons, List.length_append, first, ih later, List.length_cons]
    omega

theorem frameEntries_flatten (cueId : Byte) {frames : List (List Byte)} (each : ∀ f ∈ frames, f.length = 7) :
    frameEntries (cueId :: frames.flatten) = frames := by
  have count : ((cueId :: frames.flatten).length - 1) / 7 = frames.length := by
    rw [List.length_cons, flatten_length each]
    omega
  have places (i : Nat) : (cueId :: frames.flatten).drop (1 + 7 * i) = frames.flatten.drop (7 * i) := by
    rw [Nat.add_comm, List.drop_succ_cons]
  unfold frameEntries
  simp only [count, places]
  clear count places
  induction frames with
  | nil => rfl
  | cons f frames ih =>
    obtain ⟨first, later⟩ := List.forall_mem_cons.mp each
    have next (i : Nat) : (f ++ frames.flatten).drop (7 * (i + 1)) = frames.flatten.drop (7 * i) := by
      rw [Nat.mul_succ, Nat.add_comm, ← first, List.drop_length_add_append]
    rw [List.length_cons, List.range_succ_eq_map, List.map_cons, List.map_map, List.flatten_cons]
    refine congrArg₂ List.cons ?_ ((List.map_congr_left fun i _ => ?_).trans (ih later))
    · exact List.take_left' first
    · exact congrArg (List.take 7) (next i)

/-! ### The push (R183) -/

/-- The cue player once entries have joined the tail. -/
def joined (c : CuePlayer) (taken : List CueEntry) : CuePlayer :=
  { c with
    entries := c.entries ++ taken
    orderRef := match taken.getLast? with
      | some e => some e.time
      | none => c.orderRef }

/-- How the frames that are left end a push: there are none, or the first has a field out of range, or is early, or
finds the queue full. -/
def PushEnds (cueId : Byte) (c : CuePlayer) (rest : List (List Byte)) (result : Result) : Prop :=
  rest = [] ∧ result = .ok ∨
    ∃ f later, rest = f :: later ∧
      (EntryOutOfRange f ∧ result = .badArgument ∨
        ∃ e, EntryBytes cueId e f ∧
          ((∃ r, c.orderRef = some r ∧ clockDiff e.time r < 0) ∧ result = .order ∨
            (∀ r, c.orderRef = some r → 0 ≤ clockDiff e.time r) ∧ 256 ≤ c.entries.length ∧ result = .full))

theorem pushEntries_of_ends {cueId : Byte} {c : CuePlayer} {rest : List (List Byte)} {result : Result}
    (ends : PushEnds cueId c rest result) (n : Nat) :
    pushEntries cueId rest n c = { cue := c, result := result, accepted := n } := by
  obtain ⟨rfl, rfl⟩ | ⟨f, later, rfl, ⟨out, rfl⟩ | ⟨e, entry, ⟨⟨r, reference, early⟩, rfl⟩ | ⟨inOrder, full, rfl⟩⟩⟩ := ends
  · rfl
  · rw [pushEntries, parseEntry_of_outOfRange out]
  · have earlier : earlierThan e.time c.orderRef = true := by
      rw [reference]
      exact decide_eq_true early
    rw [pushEntries, parseEntry_of_bytes entry]
    exact if_pos earlier
  · rw [pushEntries, parseEntry_of_bytes entry]
    dsimp only
    rw [not_earlierThan_iff.mpr inOrder, if_pos full]
    rfl

/-- Entries in order and in range, with room for all, join the tail one by one. -/
theorem pushEntries_of_taken {cueId : Byte} {taken : List CueEntry} {frames : List (List Byte)}
    (entries : List.Forall₂ (EntryBytes cueId) taken frames) (ordered : timesOrdered taken) {c : CuePlayer}
    (follows : ∀ r e, c.orderRef = some r → taken.head? = some e → 0 ≤ clockDiff e.time r)
    (room : taken = [] ∨ c.entries.length + taken.length ≤ 256) (rest : List (List Byte)) (n : Nat) :
    pushEntries cueId (frames ++ rest) n c = pushEntries cueId rest (n + taken.length) (joined c taken) := by
  induction entries generalizing c n with
  | nil => simp [joined]
  | @cons e f taken frames entry _ ih =>
    have free : c.entries.length + (taken.length + 1) ≤ 256 := room.resolve_left (List.cons_ne_nil _ _)
    have inOrder : earlierThan e.time c.orderRef = false := not_earlierThan_iff.mpr fun r reference =>
      follows r e reference rfl
    have chain := (timesOrdered_iff _).mp ordered
    have later := ih ((timesOrdered_iff _).mpr chain.tail)
      (c := { c with entries := c.entries ++ [e], orderRef := some e.time })
      (fun r x reference head => by
        cases reference
        exact (List.isChain_cons.mp chain).1 x head)
      (.inr (by rw [List.length_append, List.length_singleton]; omega)) (n + 1)
    have all : joined { c with entries := c.entries ++ [e], orderRef := some e.time } taken = joined c (e :: taken) := by
      unfold joined
      rw [List.getLast?_cons, List.append_assoc]
      cases taken.getLast? <;> rfl
    rw [List.cons_append, pushEntries, parseEntry_of_bytes entry]
    dsimp only
    rw [inOrder, if_neg Bool.false_ne_true, if_neg (by omega), later, all, List.length_cons, Nat.add_right_comm,
      Nat.add_assoc]

/-! ### CUE_PUSH (R183, R184) -/

theorem cuePush_allowed (cueId : Byte) {frames : List (List Byte)} (each : ∀ f ∈ frames, f.length = 7)
    (some : 1 ≤ frames.length) (most : frames.length ≤ 8) :
    argumentsAllowed 0x26 (cueId :: frames.flatten).length = true := by
  rw [List.length_cons, flatten_length each]
  exact decide_eq_true (by omega)

/-- A push to an empty queue examines its new head after its last entry (log 14). -/
theorem actCuePush_eq {cueId : Byte} {frames : List (List Byte)} (each : ∀ f ∈ frames, f.length = 7) {s : State}
    {pushed : CuePlayer} {result : Result} {count : Nat}
    (push : pushEntries cueId frames 0 s.cue = { cue := pushed, result := result, accepted := count }) :
    actCuePush (cueId :: frames.flatten) s =
      { state := if s.cue.entries = [] then serviceCue (s.setCue pushed) else s.setCue pushed
        result := result
        data := byteOf count :: field16 pushed.entries.length } := by
  unfold actCuePush
  have first : (cueId :: frames.flatten).getD 0 0 = cueId := rfl
  rw [frameEntries_flatten cueId each, first]
  dsimp only
  rw [push]

/-- A new head that is not due stays. -/
theorem serviceCue_setCue_of_waiting {s : State} {c : CuePlayer}
    (waits : ∀ e, c.entries.head? = some e → ¬ reached s.clock e.time ∧ ¬ reached s.clock (cueDue s e)) :
    serviceCue (s.setCue c) = s.setCue c := by
  refine serviceLoop_of_waiting (fun e head => ?_) _
  obtain ⟨early, lead⟩ := waits e head
  have same : cueReached (s.setCue c) e = cueReached s e := cueReached_congr rfl rfl
  rw [same, Bool.eq_false_iff, Ne, cueReached_iff]
  exact not_or.mpr ⟨early, lead⟩

/-- Settles O53: the entries taken join the tail, the rest end the push, and a new head that is not due stays. -/
theorem cuePushAndFlush : Obligations.CuePushAndFlush := by
  refine ⟨fun s a t tag cueId taken frames rest pushed result arrived head least most sizes entries ordered follows room
    player ends => ?push, fun s a t tag arrived head => ?flush⟩
  case push =>
    have each : ∀ f ∈ frames ++ rest, f.length = 7 := fun f among =>
      (List.mem_append.mp among).elim (entryBytes_lengths entries f) (sizes f)
    have allowed := cuePush_allowed cueId each (by rwa [List.length_append]) (by rwa [List.length_append])
    have player : pushed = joined a.cue taken := player
    have run : pushEntries cueId (frames ++ rest) 0 a.cue =
        { cue := pushed, result := result, accepted := taken.length } := by
      rw [pushEntries_of_taken entries ordered follows room, ← player, Nat.zero_add]
      exact pushEntries_of_ends ends _
    have executed := exec_of_request (c := .cuePush t) (act := actCuePush) (whileLoading := false) rfl arrived head allowed
    rw [actCuePush_eq (s := a.dropHead) each run] at executed
    refine ⟨fun waits => ?waits, fun u s' empty came applied => ?due⟩
    case waits =>
      have state : (if a.dropHead.cue.entries = [] then serviceCue (a.dropHead.setCue pushed) else
          a.dropHead.setCue pushed) = a.dropHead.setCue pushed := by
        split
        case isTrue empty =>
          refine serviceCue_setCue_of_waiting fun e new => ?_
          have first : taken.head? = some e := by
            rwa [player, joined, show a.cue.entries = [] from empty] at new
          exact waits.resolve_left (not_not_intro empty) e first
        case isFalse => rfl
      rw [executed, state]
      rfl
    case due =>
      have examined : serviceCue (a.dropHead.setCue pushed) = s' :=
        (congrArg serviceCue came).symm.trans (Host.Outcome.next.inj applied)
      have free : a.dropHead.cue.entries = [] := empty
      rw [executed, if_pos free, examined]
      rfl
  case flush => exact exec_of_effect (act := actCueFlush) rfl arrived head rfl rfl

end Sys2Proof.Machine
end

section
/-! What one step does with the command at the front of the queue. -/

namespace Sys2Proof.Machine

/-- Settles O1: of `step`'s two cases, the one for a queue with a front command. -/
theorem stepTakesFrontCommand : Obligations.StepTakesFrontCommand := by
  intro c rest s queue
  rw [step, queue]

end Sys2Proof.Machine
end
